-- ==== Sys2Proof/Word.lean ====
section
/-! DEFINITION. The machine's word, and the two fixed-length words of its command port. -/

namespace Sys2Proof

/-- A StateWord: an unsigned 32-bit value, bit 0 the least significant (00_scope.md R7). -/
abbrev Word := BitVec 32

/-- A request `REQ[35:0]` on the command port (30_encoding.md R60). -/
abbrev Request := BitVec 36

/-- A response `RSP[34:0]` on the response port (30_encoding.md R63). -/
abbrev ResponseWord := BitVec 35

end Sys2Proof
end

