-- ==== Sys2Proof/Config.lean ====
section
/-! DEFINITION. The constants MTSA fixes (00_scope.md R5, R6), the index type and the array type they give, and the one
value an integrator's wiring decides (the level of the strap `cfg_verify` at the reset that `State.reset` stands for). -/

namespace Sys2Proof

/-- An index of the state array: 0 to 623 (20_memory.md R40). `N` = 624 is written out, since a width that is not a literal
costs casts. It is also the type of the cursor: a 10-bit register that holds only 0 to 623 (10_state.md R22, R28;
92_eei_decisions.md D4 and 93_implementation_defined.md U4: a model uses the range 0..623, `Fin 624`). -/
abbrev Index := Fin 624

/-- The register file: exactly 624 words of 32 bits (10_state.md R20). -/
abbrev StateArray := Vector Word 624

namespace Config

/-- State length (00_scope.md R5). -/
abbrev N : Nat := 624

/-- Recurrence offset (00_scope.md R5). -/
abbrev M : Nat := 397

/-- Twist matrix constant (00_scope.md R5). -/
abbrev A : Word := 0x9908B0DF#32

/-- Upper mask, bit 31 (00_scope.md R5). -/
abbrev UPPER : Word := 0x80000000#32

/-- Lower mask, bits 30 to 0 (00_scope.md R5). -/
abbrev LOWER : Word := 0x7FFFFFFF#32

/-- Temper mask of the left-shift-by-7 step (00_scope.md R5). -/
abbrev TB : Word := 0x9D2C5680#32

/-- Temper mask of the left-shift-by-15 step (00_scope.md R5). -/
abbrev TC : Word := 0xEFC60000#32

/-- The level of the strap `cfg_verify` at the one reset that the interface's parameterless `State.reset` stands for.
DESIGN CHOICE (log entry 3, unsafe): the spec makes it an input of each reset (10_state.md R24, R29); the model's statements
are about `State.resetWith v` for both levels `v`. -/
def strapAtReset : Bool := false

end Config

end Sys2Proof
end

