-- ==== Sys2Proof/Syntax.lean ====
section
/-! DEFINITION. The commands of MTSA, one constructor for each row of the opcode table; the statuses and responses; and the
lines of the host-side assembly language (30_encoding.md R69, R70), which only a host reads. -/

namespace Sys2Proof

/-- The commands (30_encoding.md R65). A format D command carries the 32-bit `data` field; a format Z command carries nothing,
since its `data` field is ignored, "neither checked nor stored" (30_encoding.md R61). The seven reserved opcodes are rows of
the table like the others: each completes, with a status of its own (44_inspection.md R162). -/
inductive Instr where
  | status
  | absorb (raw : Word)
  | twist
  | untwist
  | temper (y : Word)
  | untemper (y : Word)
  | next
  | prev
  | readState (index : Word)
  | reserved9
  | reservedA
  | reservedB
  | reservedC
  | reservedD
  | reservedE
  | reservedF
deriving DecidableEq, Repr

/-- The two formats (30_encoding.md R61): `D` uses the data field, `Z` ignores it. -/
inductive Format where
  | D
  | Z
deriving DecidableEq, Repr

/-- The statuses a response can carry (30_encoding.md R64). Codes 5, 6 and 7 are never produced and have no constructor. -/
inductive Status where
  | ok
  | notReady
  | consistencyMismatch
  | invalidArgument
  | illegalCommand
deriving DecidableEq, Repr

/-- One response: a status and a 32-bit result (30_encoding.md R63). -/
structure Response where
  status : Status
  data   : Word
deriving DecidableEq, Repr

/-- The mnemonics a host may write (30_encoding.md R69). -/
inductive Mnemonic where
  | STATUS
  | ABSORB
  | TWIST
  | UNTWIST
  | TEMPER
  | UNTEMPER
  | NEXT
  | PREV
  | READ_STATE
deriving DecidableEq, Repr

/-- One line of the host's assembly language (30_encoding.md R69): a statement, the pseudo-instruction ABSORB_WORDS (R70;
40_ingestion.md R86), one of the host directives, or a line that holds neither. Operands are the numbers as written; whether
they are legal is `HostLine.WellFormed`. -/
inductive HostLine where
  | blank
  | statement (m : Mnemonic) (operand : Option Nat)
  | absorbWords (value width : Int)
  | reset (verify : Bool)
  | rept (count : Nat)
  | endr
  | expect (status data : Nat)
  | illegal (op : Nat)
deriving DecidableEq, Repr

end Sys2Proof
end

