-- ==== Sys2Proof/WellFormed.lean ====
section
/-! DEFINITION. What is checked before a machine sees it. Every term of `Instr` is a command of MTSA (its one operand is a
32-bit word by type), so the checks are about the numbers that stand for requests and about the host's lines. -/

namespace Sys2Proof

/-- A number that spells a request: it fits in 36 bits (30_encoding.md R60: "All requests have this one length"). -/
abbrev RequestNumber.WellFormed (w : Nat) : Prop := w < 2 ^ 36

/-- The format of a mnemonic (30_encoding.md R61). -/
def Mnemonic.format : Mnemonic → Format
  | .STATUS => .Z
  | .ABSORB => .D
  | .TWIST => .Z
  | .UNTWIST => .Z
  | .TEMPER => .D
  | .UNTEMPER => .D
  | .NEXT => .Z
  | .PREV => .Z
  | .READ_STATE => .D

/-- What 30_encoding.md R69 asks of a line: "A Z-format mnemonic takes no operand ...; a D-format mnemonic requires one
operand", an operand is "value 0 .. 2^32-1", `.illegal` names a reserved opcode 0x9 to 0xF, and `.expect` names a status and a
data word that a response has room for (R63). The arguments of ABSORB_WORDS are checked when it runs (40_ingestion.md R86). -/
def HostLine.wellFormed : HostLine → Bool
  | .blank => true
  | .statement m (some n) => m.format == .D && decide (n < 2 ^ 32)
  | .statement m none => m.format == .Z
  | .absorbWords _ _ => true
  | .reset _ => true
  | .rept _ => true
  | .endr => true
  | .expect status data => decide (status < 8) && decide (data < 2 ^ 32)
  | .illegal op => decide (9 ≤ op) && decide (op ≤ 15)

/-- A line the language has (30_encoding.md R69). -/
abbrev HostLine.WellFormed (l : HostLine) : Prop := l.wellFormed = true

end Sys2Proof
end

