-- ==== Sys2Proof/Decode.lean ====
section
/-! DEFINITION. Decoding of requests, total on the 2^36 request words (30_encoding.md R66); the encoder; the opcode table as
rows; and the response word both ways (R63, R64). -/

namespace Sys2Proof

/-! ## Fields of a request (30_encoding.md R60) -/

/-- `op` = `REQ[35:32]`. -/
def Request.op (w : Request) : BitVec 4 := w.extractLsb' 32 4

/-- `data` = `REQ[31:0]`: an unsigned 32-bit value, not extended, scaled or shifted (30_encoding.md R62). -/
def Request.data (w : Request) : Word := w.extractLsb' 0 32

/-! ## Decoding -/

/-- The command a request selects: by its bits 35:32 alone (30_encoding.md R65, R66). -/
def decode (w : Request) : Instr :=
  match (Request.op w).toNat with
  | 0x0 => .status
  | 0x1 => .absorb (Request.data w)
  | 0x2 => .twist
  | 0x3 => .untwist
  | 0x4 => .temper (Request.data w)
  | 0x5 => .untemper (Request.data w)
  | 0x6 => .next
  | 0x7 => .prev
  | 0x8 => .readState (Request.data w)
  | 0x9 => .reserved9
  | 0xA => .reservedA
  | 0xB => .reservedB
  | 0xC => .reservedC
  | 0xD => .reservedD
  | 0xE => .reservedE
  | _ => .reservedF   -- the 4-bit field's one value left, 0xF

/-- Why a number is no request. -/
inductive DecodeError where
  | widerThanRequest   -- a bit above bit 35 is set: no request has it (30_encoding.md R60)
deriving DecidableEq, Repr

/-- The request a number spells, rejected by name where it does not fit in 36 bits. -/
def requestOfNumber (w : Nat) : Except DecodeError Request :=
  if RequestNumber.WellFormed w then .ok (BitVec.ofNat 36 w) else .error .widerThanRequest

/-- Decoding of a number, total, rejecting by name. -/
def decodeNumber (w : Nat) : Except DecodeError Instr :=
  (requestOfNumber w).map decode

/-- The request whose bits are `w`, numbered as the opcode table numbers them (bit 0 the least significant bit of the `data`
field, bits 35:32 the opcode), of `nbits` bits in whole bytes: the table's 36 bits are 5 bytes, and the 4 bits above bit 35
belong to no request (log entry 10). -/
def requestOfTableWord (nbits w : Nat) : Option Request :=
  match requestOfNumber (w % 2 ^ nbits) with
  | .ok r => some r
  | .error _ => none

/-- The command the decoder reads from an instruction whose bits are `w`. -/
def decodeTableWord (nbits w : Nat) : Option Instr :=
  (requestOfTableWord nbits w).map decode

/-! ## Encoding -/

/-- The opcode of a command (30_encoding.md R65). -/
def Instr.opcode : Instr → BitVec 4
  | .status => 0x0#4
  | .absorb _ => 0x1#4
  | .twist => 0x2#4
  | .untwist => 0x3#4
  | .temper _ => 0x4#4
  | .untemper _ => 0x5#4
  | .next => 0x6#4
  | .prev => 0x7#4
  | .readState _ => 0x8#4
  | .reserved9 => 0x9#4
  | .reservedA => 0xA#4
  | .reservedB => 0xB#4
  | .reservedC => 0xC#4
  | .reservedD => 0xD#4
  | .reservedE => 0xE#4
  | .reservedF => 0xF#4

/-- The data field sent with a command: its operand in format D, "encoded with `data = 0`" in format Z (30_encoding.md R61,
R69). -/
def Instr.data : Instr → Word
  | .status => 0
  | .absorb raw => raw
  | .twist => 0
  | .untwist => 0
  | .temper y => y
  | .untemper y => y
  | .next => 0
  | .prev => 0
  | .readState index => index
  | .reserved9 => 0
  | .reservedA => 0
  | .reservedB => 0
  | .reservedC => 0
  | .reservedD => 0
  | .reservedE => 0
  | .reservedF => 0

/-- The format of a command (30_encoding.md R61, R65). -/
def Instr.format : Instr → Format
  | .status => .Z
  | .absorb _ => .D
  | .twist => .Z
  | .untwist => .Z
  | .temper _ => .D
  | .untemper _ => .D
  | .next => .Z
  | .prev => .Z
  | .readState _ => .D
  | .reserved9 => .Z
  | .reservedA => .Z
  | .reservedB => .Z
  | .reservedC => .Z
  | .reservedD => .Z
  | .reservedE => .Z
  | .reservedF => .Z

/-- The mnemonic of a command's row in the opcode table. -/
def Instr.mnemonic : Instr → String
  | .status => "STATUS"
  | .absorb _ => "ABSORB"
  | .twist => "TWIST"
  | .untwist => "UNTWIST"
  | .temper _ => "TEMPER"
  | .untemper _ => "UNTEMPER"
  | .next => "NEXT"
  | .prev => "PREV"
  | .readState _ => "READ_STATE"
  | .reserved9 => "RESERVED_9"
  | .reservedA => "RESERVED_A"
  | .reservedB => "RESERVED_B"
  | .reservedC => "RESERVED_C"
  | .reservedD => "RESERVED_D"
  | .reservedE => "RESERVED_E"
  | .reservedF => "RESERVED_F"

/-- The request word of a command: opcode in bits 35:32, data in bits 31:0 (30_encoding.md R60). -/
def encode (i : Instr) : Request := Instr.opcode i ++ Instr.data i

/-- The command a host's mnemonic and data field stand for (30_encoding.md R65, R69). -/
def Mnemonic.instr (m : Mnemonic) (data : Word) : Instr :=
  match m with
  | .STATUS => .status
  | .ABSORB => .absorb data
  | .TWIST => .twist
  | .UNTWIST => .untwist
  | .TEMPER => .temper data
  | .UNTEMPER => .untemper data
  | .NEXT => .next
  | .PREV => .prev
  | .READ_STATE => .readState data

/-! ## The opcode table as rows -/

/-- One row of the opcode table. -/
structure OpcodeRow where
  mnemonic : String
  format   : Format
  mask     : Request
  pattern  : Request
deriving DecidableEq, Repr

/-- A request belongs to a row where its bits under the mask are the row's pattern. -/
def OpcodeRow.selects (r : OpcodeRow) (w : Request) : Bool := w &&& r.mask == r.pattern

/-- The rows of the opcode table, in its order (30_encoding.md R65). -/
def opcodeTable : List OpcodeRow :=
  [⟨"STATUS", .Z, 0xF00000000#36, 0x000000000#36⟩,
   ⟨"ABSORB", .D, 0xF00000000#36, 0x100000000#36⟩,
   ⟨"TWIST", .Z, 0xF00000000#36, 0x200000000#36⟩,
   ⟨"UNTWIST", .Z, 0xF00000000#36, 0x300000000#36⟩,
   ⟨"TEMPER", .D, 0xF00000000#36, 0x400000000#36⟩,
   ⟨"UNTEMPER", .D, 0xF00000000#36, 0x500000000#36⟩,
   ⟨"NEXT", .Z, 0xF00000000#36, 0x600000000#36⟩,
   ⟨"PREV", .Z, 0xF00000000#36, 0x700000000#36⟩] ++
  [⟨"READ_STATE", .D, 0xF00000000#36, 0x800000000#36⟩,
   ⟨"RESERVED_9", .Z, 0xF00000000#36, 0x900000000#36⟩,
   ⟨"RESERVED_A", .Z, 0xF00000000#36, 0xA00000000#36⟩,
   ⟨"RESERVED_B", .Z, 0xF00000000#36, 0xB00000000#36⟩,
   ⟨"RESERVED_C", .Z, 0xF00000000#36, 0xC00000000#36⟩,
   ⟨"RESERVED_D", .Z, 0xF00000000#36, 0xD00000000#36⟩,
   ⟨"RESERVED_E", .Z, 0xF00000000#36, 0xE00000000#36⟩,
   ⟨"RESERVED_F", .Z, 0xF00000000#36, 0xF00000000#36⟩]

/-! ## Responses (30_encoding.md R63, R64) -/

/-- The 3-bit code of a status. -/
def Status.code : Status → BitVec 3
  | .ok => 0
  | .notReady => 1
  | .consistencyMismatch => 2
  | .invalidArgument => 3
  | .illegalCommand => 4

/-- The status a code stands for; 5, 6 and 7 stand for none (93_implementation_defined.md U3). -/
def Status.ofCode (c : BitVec 3) : Option Status :=
  match c.toNat with
  | 0 => some .ok
  | 1 => some .notReady
  | 2 => some .consistencyMismatch
  | 3 => some .invalidArgument
  | 4 => some .illegalCommand
  | _ => none

/-- The response word `RSP[34:0]`: status in bits 34:32, data in bits 31:0. -/
def Response.toWord (r : Response) : ResponseWord := Status.code r.status ++ r.data

/-- A response word read back; none where its status code is one that is never produced. -/
def Response.ofWord (w : ResponseWord) : Option Response :=
  (Status.ofCode (w.extractLsb' 32 3)).map (fun st => ⟨st, w.extractLsb' 0 32⟩)

end Sys2Proof
end

