-- ==== Sys2Proof/Machine/State.lean ====
section
/-! DEFINITION. The state of the machine, as plain data, the reasons a step could stop, and the state after reset. -/

namespace Sys2Proof.Machine

/-- Reasons to stop with a fault: NONE. MTSA has no trap, no fault and no undefined behaviour: every request is answered
(60_exceptions.md R180; 70_reset_and_hazards.md R207), so no command raises one (log entry 9). Safe: there is nothing to raise. -/
inductive Fault where
deriving DecidableEq, Repr

/-- Reasons to stop with a refusal. -/
inductive Refusal where
  /-- Raised by exec's arm of an instruction that has no meaning yet; safe. No arm raises it: every row has its meaning. -/
  | notModelled (mnemonic : String)
deriving DecidableEq, Repr

/-- What the host does at MTSA's ports next, beside the requests that are already presented (30_encoding.md R68;
70_reset_and_hazards.md R200 to R203). -/
inductive HostEvent where
  /-- The host presents a request; it is held until MTSA accepts it, neither lost nor reordered (R203). -/
  | present (w : Request)
  /-- The host presents a request, and asserts `rst` while the command is in progress (R201). -/
  | presentAborted (w : Request)
  /-- The strap `cfg_verify` takes a level (10_state.md R24). -/
  | strap (level : Bool)
  /-- `rst` takes a level: true asserts it, false releases it (R200). -/
  | rst (level : Bool)
deriving DecidableEq, Repr

/-- The machine. `words`, `cursor`, `ready` and `verify` are the whole of MTSA's architectural state (10_state.md R27: nothing
else is stored between commands); the other fields are its ports and what the host has yet to do at them. -/
structure State where
  /-- `state[0]` to `state[623]` (10_state.md R20). -/
  words     : StateArray
  /-- The cursor, 0 to 623 (10_state.md R22). -/
  cursor    : Index
  /-- The readiness flag (10_state.md R23). -/
  ready     : Bool
  /-- The verification-mode bit (10_state.md R24). -/
  verify    : Bool
  /-- The level of the input strap `cfg_verify`, which only a reset samples (10_state.md R24; 30_encoding.md R68). -/
  cfgVerify : Bool
  /-- The level of the input `rst`: no request is accepted while it is asserted (70_reset_and_hazards.md R200). -/
  rst       : Bool
  /-- The requests presented and not yet accepted, the oldest first (70_reset_and_hazards.md R203). -/
  requests  : List Request
  /-- What the host does next at the ports, the next first. -/
  events    : List HostEvent
  /-- The responses delivered, the oldest first: exactly one for each accepted request, in request order (30_encoding.md R63). -/
  responses : List Response
deriving DecidableEq, Repr

/-- The machine right after a reset that sampled the level `v` of the strap (10_state.md R29; 70_reset_and_hazards.md R200),
with `rst` released and nothing at the ports. -/
def State.resetWith (v : Bool) : State where
  words := Vector.replicate 624 0
  cursor := 0
  ready := false
  verify := v
  cfgVerify := v
  rst := false
  requests := []
  events := []
  responses := []

/-- The machine right after reset. The strap's level at this reset is `Config.strapAtReset`: DESIGN CHOICE, log entry 3. -/
def State.reset : State := State.resetWith Config.strapAtReset

end Sys2Proof.Machine
end

