-- ==== Sys2Proof/Machine/Ops.lean ====
section
/-! DEFINITION. The named operations over the state: index arithmetic (00_scope.md R8), the state-access primitives of
00_scope.md R9, completing a command with its response and `raise` as one shared operation, and the ports: what a reset sets,
what the host's moves do, and which request is accepted next. -/

namespace Sys2Proof.Machine

/-! ## Index arithmetic: the remainder in 0..N-1 (00_scope.md R8) -/

/-- `(i + k) mod N`. -/
def wrapAdd (i : Index) (k : Nat) : Index := ⟨(i.val + k) % 624, Nat.mod_lt _ (by decide)⟩

/-- `(i - 1) mod N`: the predecessor of 0 is 623. -/
def wrapPred (i : Index) : Index :=
  if i.val = 0 then 623 else ⟨i.val - 1, Nat.lt_of_le_of_lt (Nat.sub_le _ _) i.isLt⟩

/-! ## The state array (00_scope.md R9; 20_memory.md R41: index i is `state[i]`) -/

/-- `state[i]`. -/
def readAt (S : StateArray) (i : Index) : Word := S[i.val]

/-- `state[i] <- v`. -/
def writeAt (S : StateArray) (i : Index) (v : Word) : StateArray := S.set i.val v

/-- `state[i] <- v` on the machine. -/
def State.writeWord (s : State) (i : Index) (v : Word) : State := { s with words := writeAt s.words i v }

/-- `state <- F(state)`: the whole array at once (20_memory.md R44). -/
def State.mapArray (s : State) (F : StateArray → StateArray) : State := { s with words := F s.words }

/-! ## The cursor (10_state.md R22) -/

/-- `cursor <- (cursor + 1) mod N`. -/
def State.advanceCursor (s : State) : State := { s with cursor := wrapAdd s.cursor 1 }

/-- `cursor <- (cursor - 1) mod N`. -/
def State.retreatCursor (s : State) : State := { s with cursor := wrapPred s.cursor }

/-! ## Completing a command -/

/-- `respond(status, data)`: exactly one response is delivered, and nothing else happens (00_scope.md R9;
60_exceptions.md R180). -/
def State.respond (s : State) (status : Status) (data : Word) : State :=
  { s with responses := s.responses ++ [⟨status, data⟩] }

/-- `raise <Status>(data)`: `respond`, then the end of the command's pseudocode, "no other effect (there are no traps)"
(00_scope.md R9). It is all that taking an error is on MTSA: nothing is saved, no mode changes, there is no vector, nothing to
return from and no latch to clear (60_exceptions.md R180, R188). -/
def State.raise (s : State) (status : Status) (data : Word) : State := s.respond status data

/-! ## The ports -/

/-- What a reset sets: every piece of state to its reset value, `verify` to the level of the strap (10_state.md R29;
70_reset_and_hazards.md R200). -/
def State.applyReset (s : State) : State :=
  { s with words := Vector.replicate 624 0, cursor := 0, ready := false, verify := s.cfgVerify }

/-- `rst` is asserted: the state is the reset state as long as it stays so (70_reset_and_hazards.md R200). -/
def State.assertReset (s : State) : State := ({ s with rst := true }).applyReset

/-- `rst` is released; where it was asserted the state is the reset state, with the strap's level at that moment
(70_reset_and_hazards.md R200). A release of a `rst` that is not asserted is no event. -/
def State.releaseReset (s : State) : State :=
  if s.rst then ({ s with rst := false }).applyReset else s

/-- The strap takes a level. While `rst` is asserted the state follows it (70_reset_and_hazards.md R200); out of reset it has no
effect until the next reset (10_state.md R24). -/
def State.setStrap (s : State) (level : Bool) : State :=
  if s.rst then ({ s with cfgVerify := level }).applyReset else { s with cfgVerify := level }

/-- A request is presented, behind those that wait already (70_reset_and_hazards.md R203). -/
def State.present (s : State) (w : Request) : State := { s with requests := s.requests ++ [w] }

/-- One move of the host at the ports. A request whose command is abandoned by a reset (70_reset_and_hazards.md R201) leaves the
reset state and no response, whatever its command; where `rst` is asserted already no command can be in progress (R200), so
that request only waits. -/
def hostMove (e : HostEvent) (s : State) : State :=
  match e with
  | .present w => s.present w
  | .presentAborted w => if s.rst then s.present w else s.assertReset
  | .strap level => s.setStrap level
  | .rst true => s.assertReset
  | .rst false => s.releaseReset

/-- The request MTSA accepts next, with the state in which its command runs: the oldest one presented, and none while `rst` is
asserted (70_reset_and_hazards.md R200, R203). -/
def acceptRequest (s : State) : Option (Request × State) :=
  match s.rst, s.requests with
  | false, w :: rest => some (w, { s with requests := rest })
  | _, _ => none

/-- A step in which no request is accepted: the host's next move, or nothing at all (MTSA keeps its state, 60_exceptions.md
R193). -/
def idle (s : State) : State :=
  match s.events with
  | [] => s
  | e :: rest => hostMove e { s with events := rest }

/-- `s` with one request placed where the next step accepts it: in front of those that wait, `rst` not asserted. A number that is
no request is not placed. -/
def placeRequest (s : State) (r : Option Request) : State :=
  match r with
  | some w => { s with requests := w :: s.requests, rst := false }
  | none => s

end Sys2Proof.Machine
end

