-- ==== Sys2Proof/Machine/Flags.lean ====
section
/-! DEFINITION. The two flags and the status word that shows them. -/

namespace Sys2Proof.Machine

/-- "if cursor = 0 then ready <- 1", after the cursor has advanced on the pre-readiness path: the only way `ready` is set
(40_ingestion.md R80; 10_state.md R23). -/
def State.markReadyOnWrap (s : State) : State :=
  if s.cursor = 0 then { s with ready := true } else s

/-- A flag as a word: 0 or 1. -/
def flagWord (b : Bool) : Word := if b then 1 else 0

/-- The status word: `zext_32(cursor) | (ready << 16) | (verify << 17)` (10_state.md R25; 44_inspection.md R160). -/
def statusWord (s : State) : Word :=
  BitVec.ofNat 32 s.cursor.val ||| (flagWord s.ready <<< 16) ||| (flagWord s.verify <<< 17)

end Sys2Proof.Machine
end

