-- ==== Sys2Proof/Machine/Temper.lean ====
section
/-! DEFINITION. The temper / untemper pipeline (42_temper.md) and the commands TEMPER and UNTEMPER. -/

namespace Sys2Proof.Machine

/-! ## Temper (42_temper.md R120, R121) -/

/-- Stage 1: XOR with right-shift-by-11. -/
def temperStage1 (y : Word) : Word := y ^^^ (y >>> 11)

/-- Stage 2: XOR with (left-shift-by-7 AND `TB`). -/
def temperStage2 (t1 : Word) : Word := t1 ^^^ ((t1 <<< 7) &&& Config.TB)

/-- Stage 3: XOR with (left-shift-by-15 AND `TC`). -/
def temperStage3 (t2 : Word) : Word := t2 ^^^ ((t2 <<< 15) &&& Config.TC)

/-- Stage 4: XOR with right-shift-by-18. -/
def temperStage4 (t3 : Word) : Word := t3 ^^^ (t3 >>> 18)

/-- `temper(y) = t4`. -/
def temper (y : Word) : Word := temperStage4 (temperStage3 (temperStage2 (temperStage1 y)))

/-! ## Untemper (42_temper.md R122, R123): the stages undone in reverse order -/

/-- `x` replaced by `f x`, `n` times ("repeat n times"). -/
def repeatTimes (f : Word → Word) : Nat → Word → Word
  | 0, x => x
  | n + 1, x => repeatTimes f n (f x)

/-- Undoes stage 4. -/
def untemperStage4 (y : Word) : Word := y ^^^ (y >>> 18)

/-- Undoes stage 3. -/
def untemperStage3 (u1 : Word) : Word := u1 ^^^ ((u1 <<< 15) &&& Config.TC)

/-- Undoes stage 2: four rounds, each making 7 more low bits correct. -/
def untemperStage2 (u2 : Word) : Word := repeatTimes (fun x => u2 ^^^ ((x <<< 7) &&& Config.TB)) 4 u2

/-- Undoes stage 1: two rounds, each making 11 more high bits correct. -/
def untemperStage1 (u3 : Word) : Word := repeatTimes (fun x => u3 ^^^ (x >>> 11)) 2 u3

/-- `untemper(y) = u4`. -/
def untemper (y : Word) : Word := untemperStage1 (untemperStage2 (untemperStage3 (untemperStage4 y)))

/-! ## Commands -/

/-- TEMPER: `respond(OK, temper(y))` (42_temper.md R124). -/
def execTemper (y : Word) (s : State) : Host.Outcome State Fault Refusal := .next (s.respond .ok (temper y))

/-- UNTEMPER: `respond(OK, untemper(y))` (42_temper.md R125). -/
def execUntemper (y : Word) (s : State) : Host.Outcome State Fault Refusal := .next (s.respond .ok (untemper y))

end Sys2Proof.Machine
end

