-- ==== Sys2Proof/Machine/Twist.lean ====
section
/-! DEFINITION. The twist / untwist datapath (41_twist.md) and the commands TWIST and UNTWIST. -/

namespace Sys2Proof.Machine

/-! ## The combination and its transform (41_twist.md R100, R103) -/

/-- The combination of two words: bit 31 of `a` with bits 30..0 of `b` (41_twist.md R100). -/
def combine (a b : Word) : Word := (a &&& Config.UPPER) ||| (b &&& Config.LOWER)

/-- The transform: right shift by one, and XOR with `A` where bit 0 was set before the shift (41_twist.md R100). -/
def g (y : Word) : Word := (y >>> 1) ^^^ (if y.getLsbD 0 then Config.A else 0)

/-- The inverse transform (41_twist.md R103). -/
def gInv (t : Word) : Word := if t.getLsbD 31 then ((t ^^^ Config.A) <<< 1) ||| 1 else t <<< 1

/-! ## Twist (41_twist.md R101) -/

/-- Step `i` of the pass, on the array as it stands at that moment. -/
def twistStep (S : StateArray) (i : Index) : StateArray :=
  let y := combine (readAt S i) (readAt S (wrapAdd i 1))
  writeAt S i (readAt S (wrapAdd i Config.M) ^^^ g y)

/-- The array after the first `k` steps of the pass, i = 0, 1, ..., k - 1. -/
def twistPass : Nat → StateArray → StateArray
  | 0, S => S
  | k + 1, S => twistStep (twistPass k S) (wrapAdd 0 k)

/-- `twist(S)`: one in-place pass in strictly increasing index order; each step reads words that earlier steps have already
rewritten (90_conflicts.md C1). -/
def twist (S : StateArray) : StateArray := twistPass 624 S

/-! ## Untwist (41_twist.md R104) -/

/-- Step `i` of the pass: the upper bit from the combination of twist step i, the lower 31 bits from that of step i-1. -/
def untwistStep (S : StateArray) (i : Index) : StateArray :=
  let yi := gInv (readAt S i ^^^ readAt S (wrapAdd i Config.M))
  let yp := gInv (readAt S (wrapPred i) ^^^ readAt S (wrapAdd (wrapPred i) Config.M))
  writeAt S i ((yi &&& Config.UPPER) ||| (yp &&& Config.LOWER))

/-- The array after the first `k` steps of the pass, i = 623, 622, ..., 624 - k. -/
def untwistPass : Nat → StateArray → StateArray
  | 0, S => S
  | k + 1, S => untwistStep (untwistPass k S) (wrapAdd 0 (623 - k))

/-- `untwist(S)`: one in-place pass in strictly decreasing index order (41_twist.md R104; 90_conflicts.md C6). -/
def untwist (S : StateArray) : StateArray := untwistPass 624 S

/-- `Valid(S)`: the lower 31 bits of `S[0]` are those the combination of twist step 623 would have taken from it
(41_twist.md R106). -/
abbrev Valid (S : StateArray) : Prop :=
  gInv (readAt S 623 ^^^ readAt S 396) &&& Config.LOWER = readAt S 0 &&& Config.LOWER

/-! ## Commands -/

/-- TWIST: `state <- twist(state)`, `respond(OK, 0)`; accepted in every state, the cursor does not move (41_twist.md R110). -/
def execTwist (s : State) : Host.Outcome State Fault Refusal := .next ((s.mapArray twist).respond .ok 0)

/-- UNTWIST: `state <- untwist(state)`, `respond(OK, 0)`; accepted in every state, the cursor does not move
(41_twist.md R111). -/
def execUntwist (s : State) : Host.Outcome State Fault Refusal := .next ((s.mapArray untwist).respond .ok 0)

end Sys2Proof.Machine
end

