-- ==== Sys2Proof/Machine/WordEngine.lean ====
section
/-! DEFINITION. The word engine (43_word_engine.md): the forward step, and the commands NEXT and PREV. -/

namespace Sys2Proof.Machine

/-- "if cursor = 0 then state <- twist(state)": the lazy generation advance at the start of a forward step (43_word_engine.md
R140; 40_ingestion.md R80). -/
def State.twistAtZero (s : State) : State := if s.cursor = 0 then s.mapArray twist else s

/-- "if cursor = 0 then state <- untwist(state)", with the cursor as it stands after the retreat (43_word_engine.md R143). -/
def State.untwistAtZero (s : State) : State := if s.cursor = 0 then s.mapArray untwist else s

/-- The word-generation multiplexer: the state word at the cursor, through the temper pipeline (43_word_engine.md R141). -/
def State.outputWord (s : State) : Word := temper (readAt s.words s.cursor)

/-- The word `predict_step()` returns from `s` (43_word_engine.md R140). -/
def predictedWord (s : State) : Word := s.twistAtZero.outputWord

/-- `predict_step()`: twist where the cursor is 0, read, then advance (43_word_engine.md R140). The word and the state after. -/
def predictStep (s : State) : Word × State := (predictedWord s, s.twistAtZero.advanceCursor)

/-- NEXT (43_word_engine.md R142). -/
def execNext (s : State) : Host.Outcome State Fault Refusal :=
  if s.ready = false then .next (s.raise .notReady 0)
  else
    let (y, t) := predictStep s
    .next (t.respond .ok y)

/-- PREV: retreat, read, then untwist where the cursor has become 0 (43_word_engine.md R143). -/
def execPrev (s : State) : Host.Outcome State Fault Refusal :=
  if s.ready = false then .next (s.raise .notReady 0)
  else
    let t := s.retreatCursor
    let y := t.outputWord
    .next (t.untwistAtZero.respond .ok y)

end Sys2Proof.Machine
end

