-- ==== Sys2Proof/Machine/Ingestion.lean ====
section
/-! DEFINITION. Ingestion (40_ingestion.md): the command ABSORB and its three paths. -/

namespace Sys2Proof.Machine

/-- The pre-readiness path: store `untemper(raw)` at the cursor, advance, and become ready where the cursor wraps to 0
(40_ingestion.md R80, R81). -/
def absorbFill (raw : Word) (s : State) : State :=
  ((s.writeWord s.cursor (untemper raw)).advanceCursor.markReadyOnWrap).respond .ok 0

/-- The verification path: one forward step; the observed word is compared with the predicted one and is never stored. A match
and a mismatch leave the same state, and both answer with the predicted word (40_ingestion.md R80, R82; 60_exceptions.md
R182; 90_conflicts.md C7). -/
def absorbVerify (raw : Word) (s : State) : State :=
  let (p, t) := predictStep s
  if p = raw then t.respond .ok p else t.raise .consistencyMismatch p

/-- The store path: twist first where the cursor is 0, then store `untemper(raw)` at the cursor, then advance (40_ingestion.md
R80; 90_conflicts.md C12). -/
def absorbStore (raw : Word) (s : State) : State :=
  let t := s.twistAtZero
  ((t.writeWord t.cursor (untemper raw)).advanceCursor).respond .ok 0

/-- ABSORB (40_ingestion.md R80). -/
def execAbsorb (raw : Word) (s : State) : Host.Outcome State Fault Refusal :=
  if s.ready = false then .next (absorbFill raw s)
  else if s.verify = true then .next (absorbVerify raw s)
  else .next (absorbStore raw s)

end Sys2Proof.Machine
end

