-- ==== Sys2Proof/Machine/Operands.lean ====
section
/-! DEFINITION. Operand forms. Format Z has none; the data word of format D is the operand itself for ABSORB, TEMPER and
UNTEMPER, and an index for READ_STATE (30_encoding.md R61, R62). -/

namespace Sys2Proof.Machine

/-- The index READ_STATE names: the whole 32-bit data field, unsigned, compared against 624; "no upper bits are discarded before
the check" (30_encoding.md R62). None where it names no word (20_memory.md R41). -/
def stateIndex (index : Word) : Option Index :=
  if h : index.toNat < 624 then some ⟨index.toNat, h⟩ else none

end Sys2Proof.Machine
end

