-- ==== Sys2Proof/Machine/Inspection.lean ====
section
/-! DEFINITION. Inspection and the reserved opcodes (44_inspection.md): STATUS, READ_STATE, RESERVED_9 to RESERVED_F. -/

namespace Sys2Proof.Machine

/-- STATUS: the status word; nothing changes (44_inspection.md R160). -/
def execStatus (s : State) : Host.Outcome State Fault Refusal := .next (s.respond .ok (statusWord s))

/-- READ_STATE: the word as stored, not tempered; INVALID_ARGUMENT with data 0 where the index is 624 or more
(44_inspection.md R161). -/
def execReadState (index : Word) (s : State) : Host.Outcome State Fault Refusal :=
  match stateIndex index with
  | some i => .next (s.respond .ok (readAt s.words i))
  | none => .next (s.raise .invalidArgument 0)

/-- A reserved opcode: ILLEGAL_COMMAND with data 0, nothing changes (44_inspection.md R162; 60_exceptions.md R184). -/
def illegalCommand (s : State) : State := s.raise .illegalCommand 0

/-- Opcode 0x9 (44_inspection.md R162). -/
def execReserved9 (s : State) : Host.Outcome State Fault Refusal := .next (illegalCommand s)

/-- Opcode 0xA (44_inspection.md R162). -/
def execReservedA (s : State) : Host.Outcome State Fault Refusal := .next (illegalCommand s)

/-- Opcode 0xB (44_inspection.md R162). -/
def execReservedB (s : State) : Host.Outcome State Fault Refusal := .next (illegalCommand s)

/-- Opcode 0xC (44_inspection.md R162). -/
def execReservedC (s : State) : Host.Outcome State Fault Refusal := .next (illegalCommand s)

/-- Opcode 0xD (44_inspection.md R162). -/
def execReservedD (s : State) : Host.Outcome State Fault Refusal := .next (illegalCommand s)

/-- Opcode 0xE (44_inspection.md R162). -/
def execReservedE (s : State) : Host.Outcome State Fault Refusal := .next (illegalCommand s)

/-- Opcode 0xF (44_inspection.md R162). -/
def execReservedF (s : State) : Host.Outcome State Fault Refusal := .next (illegalCommand s)

end Sys2Proof.Machine
end

