-- ==== Sys2Proof/Machine/Step.lean ====
section
/-! DEFINITION. One step: one command from its request to its response (20_memory.md R44), or one move of the host. -/

namespace Sys2Proof.Machine

/-- The oldest request presented runs, decoded; where none can be accepted the host's next move happens, and where there is none
either nothing does (70_reset_and_hazards.md R203; log entries 4 and 6). -/
def step (s : State) : Host.Outcome State Fault Refusal :=
  match acceptRequest s with
  | some (w, t) => exec (decode w) t
  | none => .next (idle s)

/-- `s` with the request whose bits are `w` placed so that the next step accepts and runs it. -/
def State.withFetchWord (s : State) (nbits w : Nat) : State := placeRequest s (requestOfTableWord nbits w)

end Sys2Proof.Machine
end

