-- ==== Sys2Proof/Machine/Assembler.lean ====
section
/-! DEFINITION. The host-side assembly language of 30_encoding.md R69: reading a line's text, the request a line stands for, and
the expansion of `.rept` blocks. Nothing here is a command or state of MTSA. Text is a list of characters. -/

namespace Sys2Proof.Machine

/-! ## Reading text -/

/-- White space between the parts of a line. -/
def isBlankChar (c : Char) : Bool := c == ' ' || c == '\t' || c == '\r' || c == '\n'

/-- A line without its comment: what stands before the first `;`. -/
def dropComment : List Char → List Char
  | [] => []
  | c :: cs => if c == ';' then [] else c :: dropComment cs

/-- One more token in front, where the characters collected (the last one first) are any. -/
def flushToken (collected : List Char) (rest : List (List Char)) : List (List Char) :=
  match collected with
  | [] => rest
  | _ :: _ => collected.reverse :: rest

/-- The tokens of a text: runs of characters between white space, a comma a token by itself. -/
def tokens : List Char → List Char → List (List Char)
  | [], collected => flushToken collected []
  | c :: cs, collected =>
    if isBlankChar c then flushToken collected (tokens cs [])
    else if c == ',' then flushToken collected ([','] :: tokens cs [])
    else tokens cs (c :: collected)

/-- A letter's capital, any other character itself ("Mnemonics are case-insensitive"). -/
def capital (c : Char) : Char :=
  if 97 ≤ c.toNat ∧ c.toNat ≤ 122 then Char.ofNat (c.toNat - 32) else c

/-- The value of a hexadecimal digit, in either case. -/
def digitValue (c : Char) : Option Nat :=
  let n := (capital c).toNat
  if 48 ≤ n ∧ n ≤ 57 then some (n - 48)
  else if 65 ≤ n ∧ n ≤ 70 then some (n - 55)
  else none

/-- Digits in a base, behind a value read already. -/
def digitsFrom (base : Nat) : List Char → Nat → Option Nat
  | [], acc => some acc
  | c :: cs, acc =>
    match digitValue c with
    | some d => if d < base then digitsFrom base cs (acc * base + d) else none
    | none => none

/-- `operand := decimal | "0x" hex`. The other numbers of a line are read in this form too: DESIGN CHOICE, log entry 12. -/
def readNumber : List Char → Option Nat
  | [] => none
  | '0' :: 'x' :: [] => none
  | '0' :: 'x' :: cs => digitsFrom 16 cs 0
  | cs => digitsFrom 10 cs 0

/-- A number with an optional minus sign: what ABSORB_WORDS may be given, and then refuses (40_ingestion.md R86). -/
def readInteger : List Char → Option Int
  | '-' :: cs => (readNumber cs).map (fun n => -(n : Int))
  | cs => (readNumber cs).map (fun n => (n : Int))

/-- The mnemonics as they are written, in capitals. -/
def mnemonicNames : List (List Char × Mnemonic) :=
  [(['S', 'T', 'A', 'T', 'U', 'S'], .STATUS), (['A', 'B', 'S', 'O', 'R', 'B'], .ABSORB),
   (['T', 'W', 'I', 'S', 'T'], .TWIST), (['U', 'N', 'T', 'W', 'I', 'S', 'T'], .UNTWIST),
   (['T', 'E', 'M', 'P', 'E', 'R'], .TEMPER), (['U', 'N', 'T', 'E', 'M', 'P', 'E', 'R'], .UNTEMPER),
   (['N', 'E', 'X', 'T'], .NEXT), (['P', 'R', 'E', 'V'], .PREV),
   (['R', 'E', 'A', 'D', '_', 'S', 'T', 'A', 'T', 'E'], .READ_STATE)]

/-- The name of the one pseudo-instruction (30_encoding.md R70). -/
def absorbWordsName : List Char := ['A', 'B', 'S', 'O', 'R', 'B', '_', 'W', 'O', 'R', 'D', 'S']

/-- A statement or a directive, from its tokens (30_encoding.md R69). The grammar writes out a form of number for `operand` alone;
that `count`, `op`, `status`, `data`, `value` and `width` are read in the same form (so a status is its code, and by its name makes
no line) is the model's choice: DESIGN CHOICE, log entry 12. -/
def readTokens (ts : List (List Char)) : Option HostLine :=
  match ts with
  | [] => some .blank
  | [['.', 'r', 'e', 's', 'e', 't'], ['v', 'e', 'r', 'i', 'f', 'y', '=', '0']] => some (.reset false)
  | [['.', 'r', 'e', 's', 'e', 't'], ['v', 'e', 'r', 'i', 'f', 'y', '=', '1']] => some (.reset true)
  | [['.', 'r', 'e', 'p', 't'], n] => (readNumber n).map .rept
  | [['.', 'e', 'n', 'd', 'r']] => some .endr
  | [['.', 'e', 'x', 'p', 'e', 'c', 't'], st, [','], d] =>
    match readNumber st, readNumber d with
    | some st, some d => some (.expect st d)
    | _, _ => none
  | [['.', 'i', 'l', 'l', 'e', 'g', 'a', 'l'], op] => (readNumber op).map .illegal
  | name :: args =>
    if name.map capital = absorbWordsName then
      match args with
      | [v, [','], w] =>
        match readInteger v, readInteger w with
        | some v, some w => some (.absorbWords v w)
        | _, _ => none
      | _ => none
    else
      match mnemonicNames.lookup (name.map capital), args with
      | some m, [] => some (.statement m none)
      | some m, [n] => (readNumber n).map (fun n => .statement m (some n))
      | _, _ => none

/-- `line := [ statement ] [ ";" comment ]`; none where the text is no line of the language. -/
def readLine (text : List Char) : Option HostLine := readTokens (tokens (dropComment text) [])

/-! ## The request of a line -/

/-- The request a statement or `.illegal` sends: a format Z mnemonic with data 0, a format D mnemonic with its operand as the
data field, a reserved opcode with data 0 (30_encoding.md R69). None for a line that sends none of its own, or that is not well
formed. -/
def assemble (l : HostLine) : Option Request :=
  if l.wellFormed then
    match l with
    | .statement m operand => some (encode (m.instr (BitVec.ofNat 32 (operand.getD 0))))
    | .illegal op => some (BitVec.ofNat 4 op ++ (0 : Word))
    | _ => none
  else none

/-! ## Repetition -/

/-- The lines with every `.rept count ... .endr` block written out `count` times (30_encoding.md R69), given the blocks that are
open (the count of each with what stands before it, the innermost first) and what stands in the innermost so far. None where
the two directives do not match up. -/
def expandFrom : List HostLine → List (Nat × List HostLine) → List HostLine → Option (List HostLine)
  | [], [], done => some done
  | [], _ :: _, _ => none
  | .rept n :: ls, opened, done => expandFrom ls ((n, done) :: opened) []
  | .endr :: ls, (n, before) :: opened, done => expandFrom ls opened (before ++ (List.replicate n done).flatten)
  | .endr :: _, [], _ => none
  | .blank :: ls, opened, done => expandFrom ls opened (done ++ [.blank])
  | .statement m o :: ls, opened, done => expandFrom ls opened (done ++ [.statement m o])
  | .absorbWords v w :: ls, opened, done => expandFrom ls opened (done ++ [.absorbWords v w])
  | .reset v :: ls, opened, done => expandFrom ls opened (done ++ [.reset v])
  | .expect st d :: ls, opened, done => expandFrom ls opened (done ++ [.expect st d])
  | .illegal op :: ls, opened, done => expandFrom ls opened (done ++ [.illegal op])

/-- A host's program with its repetitions written out. -/
def expandRepeats (ls : List HostLine) : Option (List HostLine) := expandFrom ls [] []

end Sys2Proof.Machine
end

