-- ==== Sys2Proof/Machine/HostSide.lean ====
section
/-! DEFINITION. What the host does with MTSA, one command after another: running a list of commands (20_memory.md R47), the
pseudo-instruction ABSORB_WORDS (40_ingestion.md R86) and the lines of a host's program (30_encoding.md R69).

WHEN THE HOST SENDS (DESIGN CHOICE, log entry 17): everything here runs a command with exec at once, which is what MTSA does with
it where `rst` is not asserted and no other request waits. That is the precondition of this file's definitions: the rules of the
host's side do not say what becomes of a send in another state, where 70_reset_and_hazards.md R200 and R203 would make it wait. -/

namespace Sys2Proof.Machine

/-! ## Sequences of commands -/

/-- The commands of a list, in order: "the state after it is the composition of their effects in that sequence"
(20_memory.md R47). Meant for a state in which `rst` is not asserted and no request waits (log entry 17). -/
def runCommands : List Instr → State → Host.Outcome State Fault Refusal
  | [], s => .next s
  | i :: is, s =>
    match exec i s with
    | .next t => runCommands is t
    | .fault r => .fault r
    | .refused r => .refused r

/-! ## ABSORB_WORDS (40_ingestion.md R86) -/

/-- The 32-bit words of a value, "least-significant first": word k is `(value >> (32*k)) mod 2^32`. -/
def wordsOf (value : Nat) (count : Nat) : List Word :=
  (List.range count).map (fun k => BitVec.ofNat 32 (value >>> (32 * k)))

/-- The host's checks and the words it then sends; none is InvalidArgument, and no request is sent. -/
def absorbWordsOperands (value width : Int) : Option (List Word) :=
  if width ≤ 0 ∨ width % 32 ≠ 0 then none
  else if value < 0 ∨ (2 : Int) ^ width.toNat ≤ value then none
  else some (wordsOf value.toNat (width.toNat / 32))

/-- What a line of a host's program ends in, as the host sees it. -/
inductive HostResult where
  | done                              -- nothing is reported: a blank line, a reset, an ABSORB_WORDS whose words were all taken
  | answered (r : Response)           -- the response to the one request the line sent
  | invalidArgument                   -- ABSORB_WORDS failed on its arguments; no request was sent
  | absorbFailed (r : Response)       -- ABSORB_WORDS ended at the first response that is not OK
  | checked (agrees : Bool)           -- `.expect`: whether the previous response is the one written
  | noLine                            -- the line is not well formed, or is a repetition left in place; nothing was sent
  | unanswered                        -- no response was delivered; it cannot be, by 60_exceptions.md R180
deriving DecidableEq, Repr

/-- Words are sent by ABSORB in order; at the first response that is not OK "words k+1.. are not sent" and those sent stay
absorbed (40_ingestion.md R86; 92_eei_decisions.md D22). Each word is taken at once, whatever `rst` and the waiting requests are:
R86 does not say what becomes of a send that finds `rst` asserted or other requests waiting, and this is the model's choice (DESIGN
CHOICE, log entry 17). -/
def sendAbsorbs : List Word → State → Host.Outcome (State × HostResult) Fault Refusal
  | [], s => .next (s, .done)
  | w :: ws, s =>
    match exec (.absorb w) s with
    | .next t =>
      match t.responses.getLast? with
      | some r => if r.status = .ok then sendAbsorbs ws t else .next (t, .absorbFailed r)
      | none => .next (t, .unanswered)
    | .fault r => .fault r
    | .refused r => .refused r

/-- ABSORB_WORDS `value, width` (40_ingestion.md R86), in a state in which `rst` is not asserted and no request waits (log entry
17). -/
def absorbWords (value width : Int) (s : State) : Host.Outcome (State × HostResult) Fault Refusal :=
  match absorbWordsOperands value width with
  | some ws => sendAbsorbs ws s
  | none => .next (s, .invalidArgument)

/-! ## Lines of a program (30_encoding.md R69) -/

/-- A request is sent and its response awaited; it is taken at once (DESIGN CHOICE, log entry 17). -/
def sendRequest (w : Request) (s : State) : Host.Outcome (State × HostResult) Fault Refusal :=
  match exec (decode w) s with
  | .next t =>
    match t.responses.getLast? with
    | some r => .next (t, .answered r)
    | none => .next (t, .unanswered)
  | .fault r => .fault r
  | .refused r => .refused r

/-- `.reset verify=v`: the strap takes the level `v`, `rst` is asserted and released (30_encoding.md R69: it "drives the `rst`
signal"), at once and not as moves that wait in `events` (DESIGN CHOICE, log entry 17). -/
def resetLine (v : Bool) (s : State) : State := ((s.setStrap v).assertReset).releaseReset

/-- `.expect status, data`: "host check of the previous response", which is the last response delivered; where none has been
delivered yet, the check is reported as failed (DESIGN CHOICE, log entry 11: 30_encoding.md R69 does not speak of this case). -/
def expectLine (status data : Nat) (s : State) : Bool :=
  match s.responses.getLast? with
  | some r => (Status.code r.status).toNat == status && r.data.toNat == data
  | none => false

/-- One line (repetitions are written out before: `expandRepeats`). -/
def runLine (l : HostLine) (s : State) : Host.Outcome (State × HostResult) Fault Refusal :=
  match l with
  | .blank => .next (s, .done)
  | .statement _ _ =>
    match assemble l with
    | some w => sendRequest w s
    | none => .next (s, .noLine)
  | .illegal _ =>
    match assemble l with
    | some w => sendRequest w s
    | none => .next (s, .noLine)
  | .absorbWords value width => absorbWords value width s
  | .reset v => .next (resetLine v s, .done)
  | .expect status data => .next (s, .checked (expectLine status data s))
  | .rept _ => .next (s, .noLine)
  | .endr => .next (s, .noLine)

/-- A program's lines in order, with the results of the lines so far (the oldest first). A line whose result is an error ends
nothing but itself: DESIGN CHOICE, log entry 11. -/
def runLines : List HostLine → State → List HostResult → Host.Outcome (State × List HostResult) Fault Refusal
  | [], s, results => .next (s, results)
  | l :: ls, s, results =>
    match runLine l s with
    | .next (t, r) => runLines ls t (results ++ [r])
    | .fault r => .fault r
    | .refused r => .refused r

end Sys2Proof.Machine
end

