-- ==== Sys2Proof/Safety.lean ====
section
/-! DEFINITION. What counts as a safe run, and the words the statements are written in. -/

namespace Sys2Proof

open Sys2Proof.Machine

/-- The architectural state of two states is the same (10_state.md R27: the array, the cursor and the two flags are all of it). -/
structure SameBlock (s t : State) : Prop where
  words  : t.words = s.words
  cursor : t.cursor = s.cursor
  ready  : t.ready = s.ready
  verify : t.verify = s.verify

/-- The ports are the same, the responses apart: no strap, no signal and nothing that waits at them. -/
structure SamePorts (s t : State) : Prop where
  cfgVerify : t.cfgVerify = s.cfgVerify
  rst       : t.rst = s.rst
  requests  : t.requests = s.requests
  events    : t.events = s.events

/-- From `s` to `t` exactly one response was delivered, `r`, and the ports are otherwise the same: what every command does
(60_exceptions.md R180). -/
structure Answers (s t : State) (r : Response) : Prop where
  responses : t.responses = s.responses ++ [r]
  ports     : SamePorts s t

/-- The reset values of the architectural state, the strap's level among them (10_state.md R29). -/
structure AtResetValues (s : State) : Prop where
  words  : ∀ i : Index, readAt s.words i = 0
  cursor : s.cursor = 0
  ready  : s.ready = false
  verify : s.verify = s.cfgVerify

/-- The invariant of a reset in force: while `rst` is asserted every piece of state has its reset value (70_reset_and_hazards.md
R200). -/
def HeldInReset (s : State) : Prop := s.rst = true → AtResetValues s

/-- The request the host's next move presents, if it presents one (70_reset_and_hazards.md R203): what a step adds to those that
wait while `rst` is asserted. -/
def presentedNext : List HostEvent → List Request
  | [] => []
  | .present w :: _ => [w]
  | .presentAborted w :: _ => [w]
  | .strap _ :: _ => []
  | .rst _ :: _ => []

/-- `n` ABSORB commands have completed since a reset (10_state.md R28): with fewer than 624 the machine is not ready and the cursor
is their number, from the 624th on it is ready. -/
structure AfterAbsorbs (n : Nat) (s : State) : Prop where
  filling : n < 624 → s.ready = false ∧ s.cursor.val = n
  filled  : 624 ≤ n → s.ready = true

/-- A state from which predictions are a generator's: ready, with a Valid array (41_twist.md R106; 43_word_engine.md R145,
R146). -/
structure Predicting (s : State) : Prop where
  ready : s.ready = true
  valid : Valid s.words

/-- `b` is reached from `a` by steps. -/
inductive Reaches : State → State → Prop where
  | refl (s : State) : Reaches s s
  | step {a b c : State} : Reaches a b → Machine.step b = .next c → Reaches a c

/-- A run that never stops: every state it reaches has a next one. MTSA has no fault and no hang (70_reset_and_hazards.md R207). -/
def SafeRun (s : State) : Prop := ∀ t, Reaches s t → ∃ u, Machine.step t = .next u

/-- A two-way-infinite word sequence that satisfies the MT19937 recurrence at every index (41_twist.md R102). -/
def Recurrence (x : Int → Word) : Prop := ∀ j : Int, x (j + 624) = x (j + 397) ^^^ g (combine (x j) (x (j + 1)))

/-- The array holds the 624 consecutive words of the sequence that begin at `k`. -/
def HoldsWindow (x : Int → Word) (k : Int) (S : StateArray) : Prop := ∀ i : Index, readAt S i = x (k + (i.val : Int))

/-- The state stands at position `p` of the sequence (43_word_engine.md R147): the cursor is `p mod 624`, and the array holds the
window that begins at `p - 1 - ((cursor - 1) mod 624)`. -/
structure AtPosition (x : Int → Word) (p : Int) (s : State) : Prop where
  cursor : (s.cursor.val : Int) = p % 624
  window : HoldsWindow x (p - 1 - ((s.cursor.val : Int) - 1) % 624) s.words

/-- The array a forward step reads: the next generation where the cursor is 0, the present one elsewhere (43_word_engine.md
R140). -/
def generationRead (s : State) : StateArray := if s.cursor = 0 then twist s.words else s.words

/-- The number of ABSORB commands in a list. -/
def absorbCount : List Instr → Nat
  | [] => 0
  | .absorb _ :: is => absorbCount is + 1
  | _ :: is => absorbCount is

/-- The commands that may change the architectural state (10_state.md R21, R22; 20_memory.md R46). -/
def Instr.changesBlock : Instr → Bool
  | .absorb _ => true
  | .twist => true
  | .untwist => true
  | .next => true
  | .prev => true
  | .status => false
  | .temper _ => false
  | .untemper _ => false
  | .readState _ => false
  | .reserved9 => false
  | .reservedA => false
  | .reservedB => false
  | .reservedC => false
  | .reservedD => false
  | .reservedE => false
  | .reservedF => false

/-- The words of the array a command reads from a state: the middle column of the table of 10_state.md R21. -/
def readsWord (i : Instr) (s : State) (j : Index) : Prop :=
  match i with
  | .absorb _ => s.ready = true ∧ (s.cursor = 0 ∨ (s.verify = true ∧ j = s.cursor))
  | .twist => True
  | .untwist => True
  | .next => s.ready = true ∧ (s.cursor = 0 ∨ j = s.cursor)
  | .prev => s.ready = true ∧ (s.cursor = 1 ∨ j = wrapPred s.cursor)
  | .readState index => j.val = index.toNat
  | .status => False
  | .temper _ => False
  | .untemper _ => False
  | .reserved9 => False
  | .reservedA => False
  | .reservedB => False
  | .reservedC => False
  | .reservedD => False
  | .reservedE => False
  | .reservedF => False

/-- A reserved opcode's command (44_inspection.md R162). -/
def Instr.isReserved : Instr → Bool
  | .reserved9 => true
  | .reservedA => true
  | .reservedB => true
  | .reservedC => true
  | .reservedD => true
  | .reservedE => true
  | .reservedF => true
  | .status => false
  | .absorb _ => false
  | .twist => false
  | .untwist => false
  | .temper _ => false
  | .untemper _ => false
  | .next => false
  | .prev => false
  | .readState _ => false

end Sys2Proof
end

