-- ==== Sys2Proof/Certificates/Slice0/Obligations.lean ====
section
/-! DEFINITION. The statements about MTSA that the provers are given. Each says in its docstring which rule of spec/ it
formalises. A state is written out as a record update where a command changes few fields, and field by field elsewhere. -/

open Sys2Proof Sys2Proof.Machine

/-! ## Reset -/

/-- 10_state.md R29: every piece of state after a reset that sampled the level `v` of the strap, the status word as STATUS reads it
among them. -/
def Obligations.ResetLeavesTheStatedValues : Prop :=
  ∀ v : Bool,
    (∀ i : Index, readAt (State.resetWith v).words i = 0) ∧ (State.resetWith v).cursor = 0 ∧
    (State.resetWith v).ready = false ∧ (State.resetWith v).verify = v ∧
    ∃ t, exec .status (State.resetWith v) = .next t ∧
      Answers (State.resetWith v) t ⟨.ok, if v then 0x00020000#32 else 0x00000000#32⟩ ∧ SameBlock (State.resetWith v) t

/-- 70_reset_and_hazards.md R200, at the ports: asserting `rst` gives every piece of state its reset value; as long as it is
asserted, and when it is released, the state has its reset values (`verify` that of the strap at that moment) and no request is
accepted: no response is delivered. What becomes of the requests at the ports is the model's (log entry 16, from R203's "neither
lost nor reordered"): those that wait stay, in their order, behind them comes the one the host's move presents, if it presents one,
and nothing else. -/
def Obligations.ResetSetsAllStateAndAcceptsNoRequest : Prop :=
  (∀ (s : State) (rest : List HostEvent), s.rst = false → s.requests = [] → s.events = .rst true :: rest →
    ∃ t, step s = .next t ∧ AtResetValues t ∧ t.rst = true ∧ t.events = rest ∧ t.requests = [] ∧
      t.cfgVerify = s.cfgVerify ∧ t.responses = s.responses) ∧
  (∀ s : State, s.rst = true → HeldInReset s →
    ∃ t, step s = .next t ∧ AtResetValues t ∧ t.responses = s.responses ∧ t.events = s.events.tail ∧
      t.requests = s.requests ++ presentedNext s.events ∧
      (s.events.head? ≠ some (.rst false) → t.rst = true) ∧
      (∀ rest, s.events = .rst false :: rest → t.rst = false ∧ t.verify = s.cfgVerify))

/-- 70_reset_and_hazards.md R201: a command abandoned by a reset leaves the reset state, whatever it was, and no response. (That the
abandoned command is one move of the host is the model's form of it: log entry 7.) -/
def Obligations.ResetDuringCommandAbandonsIt : Prop :=
  ∀ (s : State) (w : Request) (rest : List HostEvent),
    s.rst = false → s.requests = [] → s.events = .presentAborted w :: rest →
    ∃ t, step s = .next t ∧ AtResetValues t ∧ t.rst = true ∧ t.responses = s.responses ∧ t.requests = [] ∧ t.events = rest

/-- The invariant of 70_reset_and_hazards.md R200 ("While `rst` is asserted ..."): every step keeps it. -/
def Obligations.EveryStepKeepsHeldInReset : Prop :=
  ∀ s t : State, HeldInReset s → step s = .next t → HeldInReset t

/-- `HeldInReset`, and the reset values themselves, at `State.reset` and after a reset with either level of the strap. That nothing
is at the ports then, no response among it, is the model's: a run begins right after a reset (log entries 5 and 15). -/
def Obligations.ResetIsHeldInReset : Prop :=
  (HeldInReset State.reset ∧ AtResetValues State.reset) ∧
  ∀ v : Bool, HeldInReset (State.resetWith v) ∧ AtResetValues (State.resetWith v) ∧ (State.resetWith v).rst = false ∧
    (State.resetWith v).requests = [] ∧ (State.resetWith v).events = [] ∧ (State.resetWith v).responses = []

/-! ## The flags, the cursor and what commands may write -/

/-- 10_state.md R23: `ready` starts false; a command sets it only if it is an ABSORB that moves the cursor from 623 to 0; no command
clears it; over any step only a reset in force clears it; while it is 0, NEXT and PREV fail with NOT_READY. -/
def Obligations.ReadyIsSetOnceByAbsorbAndClearedByResetOnly : Prop :=
  (∀ v : Bool, (State.resetWith v).ready = false) ∧
  (∀ (i : Instr) (s t : State), exec i s = .next t → s.ready = false → t.ready = true →
    (∃ raw, i = .absorb raw) ∧ s.cursor = 623 ∧ t.cursor = 0) ∧
  (∀ (raw : Word) (s : State), s.ready = false → s.cursor = 623 → ∃ t, exec (.absorb raw) s = .next t ∧ t.ready = true) ∧
  (∀ (i : Instr) (s t : State), exec i s = .next t → s.ready = true → t.ready = true) ∧
  (∀ s t : State, step s = .next t → s.ready = true → t.ready = false → s.rst = true ∨ t.rst = true) ∧
  (∀ s : State, s.ready = false → ∀ i ∈ [Instr.next, Instr.prev],
    ∃ t d, exec i s = .next t ∧ Answers s t ⟨.notReady, d⟩)

/-- 10_state.md R24: a reset samples the strap; no command writes `verify`; a change of the strap out of reset changes the strap
and nothing else; and only ABSORB after readiness and STATUS read `verify`: every other command does the same with either value
of it. -/
def Obligations.VerifyIsSampledAtResetOnly : Prop :=
  (∀ (s : State) (rest : List HostEvent), s.rst = false → s.requests = [] → s.events = .rst true :: rest →
    ∃ t, step s = .next t ∧ t.verify = s.cfgVerify) ∧
  (∀ (i : Instr) (s t : State), exec i s = .next t → t.verify = s.verify ∧ t.cfgVerify = s.cfgVerify) ∧
  (∀ (s : State) (level : Bool) (rest : List HostEvent),
    s.rst = false → s.requests = [] → s.events = .strap level :: rest →
    step s = .next { s with cfgVerify := level, events := rest }) ∧
  (∀ (i : Instr) (s t : State) (b : Bool), i ≠ .status → (s.ready = true → ∀ raw, i ≠ .absorb raw) →
    exec i s = .next t → exec i { s with verify := b } = .next { t with verify := b })

/-- 10_state.md R22: the cursor is written by ABSORB and NEXT (one forward, mod 624) and by PREV (one back, mod 624) and by no
other command; NEXT and PREV before readiness leave it (60_exceptions.md R181). -/
def Obligations.CursorMovesByOneAndOnlyByAbsorbNextPrev : Prop :=
  ∀ (i : Instr) (s : State), ∃ t, exec i s = .next t ∧
    match i with
    | .absorb _ => t.cursor.val = (s.cursor.val + 1) % 624
    | .next => t.cursor.val = if s.ready then (s.cursor.val + 1) % 624 else s.cursor.val
    | .prev => t.cursor.val = if s.ready then (s.cursor.val + 623) % 624 else s.cursor.val
    | _ => t.cursor = s.cursor

/-- 60_exceptions.md R180 (and 30_encoding.md R63): every command, in every state, completes with exactly one response, behind
those delivered before, and leaves the ports otherwise alone. -/
def Obligations.EveryCommandAnswersExactlyOnce : Prop :=
  ∀ (i : Instr) (s : State), ∃ t r, exec i s = .next t ∧ Answers s t r

/-- The frame of the commands that only look (10_state.md R21: they write nothing): STATUS, TEMPER, UNTEMPER, READ_STATE and the
reserved opcodes leave the whole architectural state alone, every word of the array among it. -/
def Obligations.ObservingCommandsChangeNoState : Prop :=
  ∀ (i : Instr) (s : State), i.changesBlock = false → ∃ t, exec i s = .next t ∧ SameBlock s t ∧ SamePorts s t

/-- 20_memory.md R46: STATUS, READ_STATE, TEMPER and UNTEMPER are idempotent (the same response again, nothing changed); NEXT and
PREV after readiness, and ABSORB after readiness in verification mode 1, are not: issued twice they leave another state than
issued once; TWIST and UNTWIST return no word. -/
def Obligations.ReadsThatRepeatAndReadsThatDoNot : Prop :=
  (∀ (s : State) (x : Word), ∀ i ∈ [Instr.status, Instr.readState x, Instr.temper x, Instr.untemper x],
    ∃ t u r, exec i s = .next t ∧ exec i t = .next u ∧ Answers s t r ∧ Answers t u r ∧ SameBlock s t ∧ SameBlock t u) ∧
  (∀ (s : State) (x : Word), s.ready = true →
    ∀ i ∈ (if s.verify then [Instr.next, Instr.prev, Instr.absorb x] else [Instr.next, Instr.prev]),
    ∃ t u, exec i s = .next t ∧ exec i t = .next u ∧ ¬ SameBlock t u) ∧
  (∀ s : State, ∀ i ∈ [Instr.twist, Instr.untwist], ∃ t, exec i s = .next t ∧ Answers s t ⟨.ok, 0⟩)

/-- 10_state.md R21, the reads: from two states that differ in the array only, and there only in words the command does not read, a
command gives the same response, cursor and flags; every word it reads as well as every word it writes is the same after it, and a
word that is neither stays as it was in each. -/
def Obligations.CommandsReadOnlyTheStatedWords : Prop :=
  ∀ (i : Instr) (s : State) (ws : StateArray), (∀ j : Index, readsWord i s j → readAt ws j = readAt s.words j) →
    ∃ t t' r, exec i s = .next t ∧ exec i { s with words := ws } = .next t' ∧
      Answers s t r ∧ Answers { s with words := ws } t' r ∧
      t'.cursor = t.cursor ∧ t'.ready = t.ready ∧ t'.verify = t.verify ∧
      ∀ j : Index, readAt t'.words j = readAt t.words j ∨
        (¬ readsWord i s j ∧ readAt t.words j = readAt s.words j ∧ readAt t'.words j = readAt ws j)

/-! ## Ingestion -/

/-- 40_ingestion.md R80: ABSORB, its three paths, in every state; every word of the array, the cursor, both flags and the response.
`generationRead s` is the twisted array where the cursor is 0 and the array elsewhere. -/
def Obligations.AbsorbFollowsItsThreePaths : Prop :=
  ∀ (raw : Word) (s : State), ∃ t r, exec (.absorb raw) s = .next t ∧ Answers s t r ∧
    t.verify = s.verify ∧ t.cursor.val = (s.cursor.val + 1) % 624 ∧
    (s.ready = false → r = ⟨.ok, 0⟩ ∧ t.ready = decide (s.cursor.val = 623) ∧
      ∀ j : Index, readAt t.words j = if j = s.cursor then untemper raw else readAt s.words j) ∧
    (s.ready = true → t.ready = true) ∧
    (s.ready = true → s.verify = true → t.words = generationRead s ∧
      r.data = temper (readAt (generationRead s) s.cursor) ∧
      r.status = if r.data = raw then .ok else .consistencyMismatch) ∧
    (s.ready = true → s.verify = false → r = ⟨.ok, 0⟩ ∧
      ∀ j : Index, readAt t.words j = if j = s.cursor then untemper raw else readAt (generationRead s) j)

/-- 40_ingestion.md R81: from reset, 624 ABSORB commands fill the array with the untempered operands in order and make the machine
ready with the cursor at 0, and no fewer of them do: after the first `k` it is not ready and the cursor is `k`. -/
def Obligations.SixHundredTwentyFourAbsorbsFillTheArray : Prop :=
  ∀ (v : Bool) (ws : Vector Word 624),
    (∃ t, runCommands (ws.toList.map Instr.absorb) (State.resetWith v) = .next t ∧
      (∀ i : Index, readAt t.words i = untemper ws[i.val]) ∧ t.cursor = 0 ∧ t.ready = true) ∧
    (∀ k, k < 624 → ∃ t, runCommands ((ws.toList.take k).map Instr.absorb) (State.resetWith v) = .next t ∧
      t.ready = false ∧ t.cursor.val = k)

/-- 10_state.md R28: after any commands from reset, as long as fewer than 624 of them are ABSORBs the machine is not ready and the
cursor is their number; from the 624th on it is ready, and stays so. (That the cursor is in 0..623 is its type.) -/
def Obligations.BeforeReadinessTheCursorCountsAbsorbs : Prop :=
  ∀ (v : Bool) (is : List Instr), ∃ t, runCommands is (State.resetWith v) = .next t ∧
    (absorbCount is < 624 → t.ready = false ∧ t.cursor.val = absorbCount is) ∧
    (624 ≤ absorbCount is → t.ready = true)

/-- The step lemma of 10_state.md R28, from every state and not from reset only: a command run where `n` ABSORBs have completed leaves
a state in which `n + 1` have if it is an ABSORB, and `n` if it is not. -/
def Obligations.EveryCommandKeepsTheAbsorbCount : Prop :=
  ∀ (n : Nat) (i : Instr) (s : State), AfterAbsorbs n s → ∃ t, exec i s = .next t ∧ AfterAbsorbs (n + absorbCount [i]) t

/-- 40_ingestion.md R82: on the verification path ABSORB, whatever its operand, has NEXT's effect and returns NEXT's word, and
differs in its status only; a run of such ABSORBs leaves the state that as many NEXT commands leave. -/
def Obligations.VerifyingAbsorbIsNextButForItsStatus : Prop :=
  (∀ (raw : Word) (s : State), s.ready = true → s.verify = true →
    ∃ t u w, exec .next s = .next t ∧ exec (.absorb raw) s = .next u ∧ Answers s t ⟨.ok, w⟩ ∧
      Answers s u ⟨if w = raw then .ok else .consistencyMismatch, w⟩ ∧ SameBlock t u) ∧
  (∀ (raws : List Word) (s : State), s.ready = true → s.verify = true →
    ∃ t u, runCommands (List.replicate raws.length Instr.next) s = .next t ∧
      runCommands (raws.map Instr.absorb) s = .next u ∧ SameBlock t u)

/-- 40_ingestion.md R83: ABSORB of the word NEXT would return leaves the state NEXT leaves, on the store path and ("in either
mode") on the verification path. -/
def Obligations.StoringTheTrueContinuationIsNext : Prop :=
  ∀ s : State, s.ready = true →
    ∃ t u w, exec .next s = .next t ∧ Answers s t ⟨.ok, w⟩ ∧ exec (.absorb w) s = .next u ∧ SameBlock t u

/-- 40_ingestion.md R86, the host's checks and the order of the words: with a width that is not a positive multiple of 32, or a
value that does not fit, ABSORB_WORDS fails with InvalidArgument and MTSA is untouched; else it sends `width / 32` words, word k
being bits `32 k + 31 .. 32 k` of the value, and they make up the value again. -/
def Obligations.AbsorbWordsChecksAndSplitsLowWordFirst : Prop :=
  (∀ (value width : Int) (s : State), width ≤ 0 ∨ width % 32 ≠ 0 ∨ value < 0 ∨ (2 : Int) ^ width.toNat ≤ value →
    absorbWords value width s = .next (s, .invalidArgument)) ∧
  (∀ (value count : Nat) (s : State), 0 < count → value < 2 ^ (32 * count) →
    ∃ ws : List Word, absorbWords value (32 * count : Nat) s = sendAbsorbs ws s ∧ ws.length = count ∧
      (∀ k (h : k < ws.length), ws[k].toNat = value / 2 ^ (32 * k) % 2 ^ 32) ∧
      ws.foldr (fun w above => w.toNat + 2 ^ 32 * above) 0 = value)

/-- 40_ingestion.md R86, the sequence: ABSORB_WORDS sends its words by ABSORB in order and stops behind the first response that is
not OK, which is a CONSISTENCY_MISMATCH; the words sent so far stay absorbed; without one all are absorbed. That each word is taken
at once also where `rst` is asserted or other requests wait, so that this holds in every state, is the model's choice (log entry
17): R86 does not speak of a send in such a state. -/
def Obligations.AbsorbWordsStopsAtTheFirstFailure : Prop :=
  ∀ (ws : List Word) (s : State), ∃ t res rs, sendAbsorbs ws s = .next (t, res) ∧
    runCommands ((ws.take rs.length).map Instr.absorb) s = .next t ∧ rs.length ≤ ws.length ∧
    t.responses = s.responses ++ rs ∧
    ((res = .done ∧ rs.length = ws.length ∧ ∀ r ∈ rs, r.status = .ok) ∨
     (∃ before r, rs = before ++ [r] ∧ res = .absorbFailed r ∧ r.status = .consistencyMismatch ∧
        ∀ r' ∈ before, r'.status = .ok))

/-! ## The twist / untwist datapath -/

/-- 41_twist.md R103: `g` is a bijection of the 32-bit words with inverse `gInv`, and bit 31 of `g y` says whether `A` was
applied. -/
def Obligations.TwistTransformIsInvertible : Prop :=
  ∀ y : Word, gInv (g y) = y ∧ g (gInv y) = y ∧ (g y).getLsbD 31 = y.getLsbD 0

/-- 41_twist.md R102: which values the steps of the twist pass read (with `T` the array after it: `wrapAdd i 397` is `i + 397` for
i below 227 and `i - 227` from there on), and that it computes the MT19937 recurrence; the lower 31 bits of word 0 are read by no
step. -/
def Obligations.TwistReadsTheStatedValues : Prop :=
  ∀ S : StateArray,
    (∀ i : Index, i.val ≤ 226 → readAt (twist S) i =
      readAt S (wrapAdd i 397) ^^^ g (combine (readAt S i) (readAt S (wrapAdd i 1)))) ∧
    (∀ i : Index, 227 ≤ i.val → i.val ≤ 622 → readAt (twist S) i =
      readAt (twist S) (wrapAdd i 397) ^^^ g (combine (readAt S i) (readAt S (wrapAdd i 1)))) ∧
    (readAt (twist S) 623 = readAt (twist S) 396 ^^^ g (combine (readAt S 623) (readAt (twist S) 0))) ∧
    (∀ (x : Int → Word) (k : Int), HoldsWindow x k S → HoldsWindow x (k + 624) (twist S) →
      ∀ j : Int, k ≤ j → j ≤ k + 623 → x (j + 624) = x (j + 397) ^^^ g (combine (x j) (x (j + 1)))) ∧
    (∀ v : Word, v &&& Config.UPPER = readAt S 0 &&& Config.UPPER → twist (writeAt S 0 v) = twist S)

/-- 41_twist.md R105: which values the steps of the untwist pass read, with `T` the array before it and `untwist T` the array
after it. -/
def Obligations.UntwistReadsTheStatedValues : Prop :=
  ∀ T : StateArray,
    (∀ i : Index, 228 ≤ i.val → readAt (untwist T) i =
      (gInv (readAt T i ^^^ readAt T (wrapAdd i 397)) &&& Config.UPPER) |||
      (gInv (readAt T (wrapPred i) ^^^ readAt T (wrapAdd (wrapPred i) 397)) &&& Config.LOWER)) ∧
    (readAt (untwist T) 227 =
      (gInv (readAt T 227 ^^^ readAt T 0) &&& Config.UPPER) |||
      (gInv (readAt T 226 ^^^ readAt (untwist T) 623) &&& Config.LOWER)) ∧
    (∀ i : Index, 1 ≤ i.val → i.val ≤ 226 → readAt (untwist T) i =
      (gInv (readAt T i ^^^ readAt (untwist T) (wrapAdd i 397)) &&& Config.UPPER) |||
      (gInv (readAt T (wrapPred i) ^^^ readAt (untwist T) (wrapAdd (wrapPred i) 397)) &&& Config.LOWER)) ∧
    (readAt (untwist T) 0 =
      (gInv (readAt T 0 ^^^ readAt (untwist T) 397) &&& Config.UPPER) |||
      (gInv (readAt (untwist T) 623 ^^^ readAt (untwist T) 396) &&& Config.LOWER))

/-- 41_twist.md R107 items 1 and 2: the result of either pass is Valid, whatever the array was. -/
def Obligations.TwistAndUntwistGiveValidArrays : Prop :=
  ∀ S : StateArray, Valid (twist S) ∧ Valid (untwist S)

/-- 41_twist.md R107 item 3: untwist after twist restores exactly the Valid arrays; of another it restores all but bits 30..0 of
word 0, which differ. -/
def Obligations.UntwistAfterTwistRestoresExactlyValidArrays : Prop :=
  ∀ S : StateArray, (untwist (twist S) = S ↔ Valid S) ∧
    (¬ Valid S → (∀ i : Index, i ≠ 0 → readAt (untwist (twist S)) i = readAt S i) ∧
      readAt (untwist (twist S)) 0 &&& Config.UPPER = readAt S 0 &&& Config.UPPER ∧
      readAt (untwist (twist S)) 0 &&& Config.LOWER ≠ readAt S 0 &&& Config.LOWER)

/-- 41_twist.md R107 item 4: twist after untwist restores exactly the Valid arrays; of another it restores all but word 623, which
differs. -/
def Obligations.TwistAfterUntwistRestoresExactlyValidArrays : Prop :=
  ∀ S : StateArray, (twist (untwist S) = S ↔ Valid S) ∧
    (¬ Valid S → (∀ i : Index, i ≠ 623 → readAt (twist (untwist S)) i = readAt S i) ∧
      readAt (twist (untwist S)) 623 ≠ readAt S 623)

/-- 41_twist.md R107 item 5: twist and untwist are mutually inverse bijections of the set of Valid arrays. -/
def Obligations.TwistAndUntwistAreInverseOnValidArrays : Prop :=
  Set.BijOn twist {S | Valid S} {S | Valid S} ∧ Set.BijOn untwist {S | Valid S} {S | Valid S} ∧
    Set.InvOn untwist twist {S | Valid S} {S | Valid S}

/-- 41_twist.md R108: arrays that differ only in bits 30..0 of word 0 have the same twist; the example. -/
def Obligations.TwistIsNotInjective : Prop :=
  (∀ S S' : StateArray, (∀ i : Index, i ≠ 0 → readAt S' i = readAt S i) →
    readAt S' 0 &&& Config.UPPER = readAt S 0 &&& Config.UPPER → twist S' = twist S) ∧
  (let zeros : StateArray := Vector.replicate 624 0
   twist zeros = zeros ∧ twist (writeAt zeros 0 1#32) = zeros ∧ ¬ Valid (writeAt zeros 0 1#32) ∧ untwist zeros = zeros)

/-- 41_twist.md R109: every window of 624 words of a sequence that satisfies the recurrence is Valid, twist maps it to the next 624
words and untwist to the previous 624; so the array absorbed from 624 consecutive outputs, and every array reached from there by
NEXT, PREV and verifying ABSORB, is Valid. -/
def Obligations.WindowsOfOneGeneratorAreValidAndTwistMovesThem : Prop :=
  (∀ (x : Int → Word) (k : Int) (S : StateArray), Recurrence x → HoldsWindow x k S →
    Valid S ∧ HoldsWindow x (k + 624) (twist S) ∧ HoldsWindow x (k - 624) (untwist S)) ∧
  (∀ (x : Int → Word) (k : Int) (v : Bool) (is : List Instr), Recurrence x →
    (∀ i ∈ is, i = .next ∨ i = .prev ∨ (v = true ∧ ∃ raw, i = .absorb raw)) →
    ∃ t, runCommands
        ((List.range 624).map (fun (n : Nat) => Instr.absorb (temper (x (k + (n : Int))))) ++ is) (State.resetWith v) = .next t ∧
      Valid t.words)

/-- 41_twist.md R110, R111: TWIST and UNTWIST, in every state: the array is passed through the datapath, nothing else changes, and
the response is (OK, 0); the all-zero array twists and untwists to itself; UNTWIST after TWIST restores the array exactly when
it was Valid. -/
def Obligations.TwistAndUntwistCommandsDriveTheDatapath : Prop :=
  ∀ s : State,
    exec .twist s = .next { s with words := twist s.words, responses := s.responses ++ [⟨.ok, 0⟩] } ∧
    exec .untwist s = .next { s with words := untwist s.words, responses := s.responses ++ [⟨.ok, 0⟩] } ∧
    ((∀ i : Index, readAt s.words i = 0) → twist s.words = s.words ∧ untwist s.words = s.words) ∧
    (∃ t, runCommands [.twist, .untwist] s = .next t ∧ (t.words = s.words ↔ Valid s.words))

/-! ## The temper / untemper pipeline -/

/-- 42_temper.md R123: the two pipelines are inverse to each other on all 32-bit words, so both are bijections. -/
def Obligations.TemperAndUntemperAreInverse : Prop :=
  (∀ y : Word, untemper (temper y) = y ∧ temper (untemper y) = y) ∧
    Function.Bijective temper ∧ Function.Bijective untemper

/-- 42_temper.md R122: each line of untemper inverts its stage of temper, and is inverted by it. -/
def Obligations.EachUntemperStageInvertsItsTemperStage : Prop :=
  ∀ y : Word,
    (untemperStage4 (temperStage4 y) = y ∧ temperStage4 (untemperStage4 y) = y) ∧
    (untemperStage3 (temperStage3 y) = y ∧ temperStage3 (untemperStage3 y) = y) ∧
    (untemperStage2 (temperStage2 y) = y ∧ temperStage2 (untemperStage2 y) = y) ∧
    (untemperStage1 (temperStage1 y) = y ∧ temperStage1 (untemperStage1 y) = y)

/-- 42_temper.md R124, R125: TEMPER and UNTEMPER, in every state: the response, and nothing else; the corner values; UNTEMPER of a
TEMPER result returns the operand. -/
def Obligations.TemperAndUntemperCommandsAnswerTheirWord : Prop :=
  (∀ (y : Word) (s : State),
    exec (.temper y) s = .next { s with responses := s.responses ++ [⟨.ok, temper y⟩] } ∧
    exec (.untemper y) s = .next { s with responses := s.responses ++ [⟨.ok, untemper y⟩] } ∧
    ∃ t u w, exec (.temper y) s = .next t ∧ Answers s t ⟨.ok, w⟩ ∧ exec (.untemper w) t = .next u ∧ Answers t u ⟨.ok, y⟩) ∧
  temper 0x00000000#32 = 0x00000000#32 ∧ temper 0xFFFFFFFF#32 = 0x6FE01BF8#32 ∧
  untemper 0x00000000#32 = 0x00000000#32 ∧ untemper 0xFFFFFFFF#32 = 0x12DD9BB3#32

/-! ## The word engine -/

/-- 43_word_engine.md R144: NEXT and PREV after readiness, row by row of the table of crossings, with all that they leave. -/
def Obligations.NextAndPrevFollowTheCrossingTable : Prop :=
  ∀ s : State, s.ready = true →
    (∃ t w, exec .next s = .next t ∧ Answers s t ⟨.ok, w⟩ ∧ t.ready = true ∧ t.verify = s.verify ∧
      (s.cursor.val = 0 → t.words = twist s.words ∧ w = temper (readAt (twist s.words) 0) ∧ t.cursor.val = 1) ∧
      (1 ≤ s.cursor.val → s.cursor.val ≤ 622 →
        t.words = s.words ∧ w = temper (readAt s.words s.cursor) ∧ t.cursor.val = s.cursor.val + 1) ∧
      (s.cursor.val = 623 → t.words = s.words ∧ w = temper (readAt s.words 623) ∧ t.cursor.val = 0)) ∧
    (∃ t w, exec .prev s = .next t ∧ Answers s t ⟨.ok, w⟩ ∧ t.ready = true ∧ t.verify = s.verify ∧
      (s.cursor.val = 0 → t.words = s.words ∧ w = temper (readAt s.words 623) ∧ t.cursor.val = 623) ∧
      (s.cursor.val = 1 → t.words = untwist s.words ∧ w = temper (readAt s.words 0) ∧ t.cursor.val = 0) ∧
      (2 ≤ s.cursor.val →
        t.words = s.words ∧ w = temper (readAt s.words (wrapPred s.cursor)) ∧ t.cursor.val + 1 = s.cursor.val))

/-- 60_exceptions.md R181: before readiness NEXT and PREV answer (NOT_READY, 0) and change nothing; no other command answers
NOT_READY, and none does after readiness. -/
def Obligations.NotReadyIsNextAndPrevBeforeReadiness : Prop :=
  (∀ s : State, s.ready = false → ∀ i ∈ [Instr.next, Instr.prev],
    exec i s = .next { s with responses := s.responses ++ [⟨.notReady, 0⟩] }) ∧
  (∀ (i : Instr) (s t : State) (d : Word), exec i s = .next t → Answers s t ⟨.notReady, d⟩ →
    (i = .next ∨ i = .prev) ∧ s.ready = false)

/-- 43_word_engine.md R145: with a Valid array NEXT followed by PREV returns the same word twice and restores the state. -/
def Obligations.NextThenPrevIsTheIdentity : Prop :=
  ∀ s : State, Predicting s →
    ∃ t u w, exec .next s = .next t ∧ exec .prev t = .next u ∧ Answers s t ⟨.ok, w⟩ ∧ Answers t u ⟨.ok, w⟩ ∧ SameBlock s u

/-- 43_word_engine.md R146, its first sentence: with a Valid array PREV followed by NEXT returns the same word twice and restores
the state. -/
def Obligations.PrevThenNextIsTheIdentity : Prop :=
  ∀ s : State, Predicting s →
    ∃ t u w, exec .prev s = .next t ∧ exec .next t = .next u ∧ Answers s t ⟨.ok, w⟩ ∧ Answers t u ⟨.ok, w⟩ ∧ SameBlock s u

/-- 43_word_engine.md R146, the rest: a Valid array stays Valid under every command, but for an ABSORB that stores another word
than the one that is there (any ABSORB before readiness may). -/
def Obligations.ValidityIsKeptUnlessAbsorbStoresAnotherWord : Prop :=
  ∀ (i : Instr) (s : State), Valid s.words →
    (∀ raw, i = .absorb raw → s.ready = true ∧
      (s.verify = true ∨ untemper raw = readAt (generationRead s) s.cursor)) →
    ∃ t, exec i s = .next t ∧ Valid t.words

/-- 43_word_engine.md R147, the sequence: a Valid array is the window at 0 of exactly one two-way-infinite sequence that satisfies
the recurrence at every index. -/
def Obligations.AValidArrayHasOneTwoWaySequence : Prop :=
  ∀ S : StateArray, Valid S → ∃! x : Int → Word, Recurrence x ∧ HoldsWindow x 0 S

/-- 43_word_engine.md R147, the law: at readiness the state stands at position 624 of its sequence; from position `p`, NEXT returns
`temper(x_p)` and stands at `p + 1`, PREV returns `temper(x_(p-1))` and stands at `p - 1`, ABSORB in verification mode (any
operand) and ABSORB of the word NEXT would return stand at `p + 1`. ABSORB answers as 40_ingestion.md R80 says: in verification
mode with `temper(x_p)` as its data (OK where the operand is that word, CONSISTENCY_MISMATCH elsewhere), on the store path
(OK, 0). -/
def Obligations.EveryMoveFollowsTheSequence : Prop :=
  ∀ x : Int → Word, Recurrence x →
    (∀ s : State, s.cursor = 0 → HoldsWindow x 0 s.words → AtPosition x 624 s) ∧
    (∀ (p : Int) (s : State), s.ready = true → AtPosition x p s →
      (∃ t, exec .next s = .next t ∧ Answers s t ⟨.ok, temper (x p)⟩ ∧ AtPosition x (p + 1) t) ∧
      (∃ t, exec .prev s = .next t ∧ Answers s t ⟨.ok, temper (x (p - 1))⟩ ∧ AtPosition x (p - 1) t) ∧
      (∀ raw : Word, s.verify = true ∨ raw = temper (x p) →
        ∃ t, exec (.absorb raw) s = .next t ∧ AtPosition x (p + 1) t ∧
          Answers s t (if s.verify then ⟨if temper (x p) = raw then .ok else .consistencyMismatch, temper (x p)⟩
            else ⟨.ok, 0⟩)))

/-- 43_word_engine.md R148, the forward crossing (OffValidPrevThenNextLosesLastWord is the backward one): NEXT at cursor 0 from an array that is not Valid, then PREV, restores every word but bits 30..0 of
word 0, which differ, and the cursor. -/
def Obligations.OffValidNextThenPrevLosesWordZero : Prop :=
  ∀ s : State, s.ready = true → s.cursor = 0 → ¬ Valid s.words →
    ∃ t u, exec .next s = .next t ∧ exec .prev t = .next u ∧ u.cursor = 0 ∧
      (∀ i : Index, i ≠ 0 → readAt u.words i = readAt s.words i) ∧
      readAt u.words 0 &&& Config.UPPER = readAt s.words 0 &&& Config.UPPER ∧
      readAt u.words 0 &&& Config.LOWER ≠ readAt s.words 0 &&& Config.LOWER

/-- 43_word_engine.md R148, the backward crossing (with 41_twist.md R107 item 4): PREV at cursor 1 from an array that is not Valid,
then NEXT, restores every word but word 623, which differs, and the cursor. -/
def Obligations.OffValidPrevThenNextLosesLastWord : Prop :=
  ∀ s : State, s.ready = true → s.cursor = 1 → ¬ Valid s.words →
    ∃ t u, exec .prev s = .next t ∧ exec .next t = .next u ∧ u.cursor = 1 ∧
      (∀ i : Index, i ≠ 623 → readAt u.words i = readAt s.words i) ∧
      readAt u.words 623 ≠ readAt s.words 623

/-- 43_word_engine.md R149 (the source's property S4 of 95_test_vectors.md): `k` NEXT and then `k` PREV return the same words, the
second time in reverse order, and restore the state; and the other way round. -/
def Obligations.BackwardWordsAreTheForwardWordsReversed : Prop :=
  ∀ (k : Nat) (s : State), Predicting s →
    (∃ t u ws, runCommands (List.replicate k Instr.next) s = .next t ∧ runCommands (List.replicate k Instr.prev) t = .next u ∧
      ws.length = k ∧ t.responses = s.responses ++ ws ∧ u.responses = t.responses ++ ws.reverse ∧ SameBlock s u) ∧
    (∃ t u ws, runCommands (List.replicate k Instr.prev) s = .next t ∧ runCommands (List.replicate k Instr.next) t = .next u ∧
      ws.length = k ∧ t.responses = s.responses ++ ws ∧ u.responses = t.responses ++ ws.reverse ∧ SameBlock s u)

/-- 43_word_engine.md R142, a corner case: from the all-zero array NEXT returns 0 for ever. -/
def Obligations.TheAllZeroArrayYieldsZeroForEver : Prop :=
  ∀ (k : Nat) (s : State), s.ready = true → (∀ i : Index, readAt s.words i = 0) →
    ∃ t, runCommands (List.replicate k Instr.next) s = .next t ∧ t.words = s.words ∧
      t.responses = s.responses ++ List.replicate k ⟨.ok, 0⟩ ∧ t.cursor.val = (s.cursor.val + k) % 624

/-! ## Inspection and reserved opcodes -/

/-- 44_inspection.md R160 (the layout is 10_state.md R25's): STATUS answers the status word, and nothing changes. -/
def Obligations.StatusShowsCursorAndFlags : Prop :=
  ∀ s : State, ∃ w : Word,
    exec .status s = .next { s with responses := s.responses ++ [⟨.ok, w⟩] } ∧
    (w.extractLsb' 0 10).toNat = s.cursor.val ∧ w.extractLsb' 10 6 = 0 ∧ w.getLsbD 16 = s.ready ∧ w.getLsbD 17 = s.verify ∧
    w.extractLsb' 18 14 = 0

/-- 44_inspection.md R161: READ_STATE answers the word as stored for an index up to 623, (INVALID_ARGUMENT, 0) for any other, and
nothing changes. -/
def Obligations.ReadStateReadsTheStoredWord : Prop :=
  ∀ (index : Word) (s : State),
    (∀ h : index.toNat < 624, exec (.readState index) s =
      .next { s with responses := s.responses ++ [⟨.ok, readAt s.words ⟨index.toNat, h⟩⟩] }) ∧
    (624 ≤ index.toNat → exec (.readState index) s =
      .next { s with responses := s.responses ++ [⟨.invalidArgument, 0⟩] })

/-- 44_inspection.md R162 (60_exceptions.md R184): each reserved opcode, with any data, in any state, answers (ILLEGAL_COMMAND, 0)
and changes nothing; no other command answers ILLEGAL_COMMAND. -/
def Obligations.ReservedOpcodesAnswerIllegalCommand : Prop :=
  (∀ (s : State), ∀ i ∈ [Instr.reserved9, .reservedA, .reservedB, .reservedC, .reservedD, .reservedE, .reservedF],
    exec i s = .next { s with responses := s.responses ++ [⟨.illegalCommand, 0⟩] }) ∧
  (∀ (w : Request) (s : State), 9 ≤ (w.extractLsb' 32 4).toNat →
    exec (decode w) s = .next { s with responses := s.responses ++ [⟨.illegalCommand, 0⟩] }) ∧
  (∀ (i : Instr) (s t : State) (d : Word), exec i s = .next t → Answers s t ⟨.illegalCommand, d⟩ → i.isReserved = true)

/-! ## Errors, order and steps -/

/-- 60_exceptions.md R187 (with R182): a command that ends in an error has no effect at all and answers data 0, but for
CONSISTENCY_MISMATCH, which only a verifying ABSORB answers, with exactly the effects of the forward step, the predicted word as
its data, and the operand not stored. -/
def Obligations.ErrorsArePrecise : Prop :=
  ∀ (i : Instr) (s t : State) (r : Response), exec i s = .next t → Answers s t r → r.status ≠ .ok →
    (r.status ≠ .consistencyMismatch → r.data = 0 ∧ SameBlock s t) ∧
    (r.status = .consistencyMismatch → ∃ raw, i = .absorb raw ∧ s.ready = true ∧ s.verify = true ∧
      r.data = temper (readAt (generationRead s) s.cursor) ∧ r.data ≠ raw ∧
      t.words = generationRead s ∧ t.cursor.val = (s.cursor.val + 1) % 624 ∧ t.ready = true ∧ t.verify = s.verify)

/-- 70_reset_and_hazards.md R203, its last sentence, from any two states: what a sequence of commands answers, and the architectural
state it leaves, depend on the architectural state it starts from and on nothing else (not on the strap, the signals, what waits,
or what was answered before). One response for each command. -/
def Obligations.ResponsesDependOnTheBlockAlone : Prop :=
  ∀ (is : List Instr) (s s' : State), SameBlock s s' →
    ∃ t t' rs, runCommands is s = .next t ∧ runCommands is s' = .next t' ∧ SameBlock t t' ∧ rs.length = is.length ∧
      t.responses = s.responses ++ rs ∧ t'.responses = s'.responses ++ rs

/-- A step runs the oldest request presented, decoded, with that request taken away (70_reset_and_hazards.md R203), also where the
host has moves to make (the model's choice: log entry 4); a request placed by `withFetchWord`, in front of those that wait and with
`rst` not asserted (the model's choice: log entry 8), is the one the next step runs; a request the host presents waits, behind those
that wait already, and nothing else changes, out of reset as well as while `rst` is asserted, where a command to be abandoned cannot
have begun and its request waits too (R203, "neither lost nor reordered"; log entries 7 and 16); and with nothing to accept and no
move of the host a step leaves everything as it is (the model's choice: log entry 6). -/
def Obligations.AStepRunsTheDecodedRequest : Prop :=
  (∀ (s : State) (w : Request) (rest : List Request), s.rst = false → s.requests = w :: rest →
    step s = exec (decode w) { s with requests := rest }) ∧
  (∀ (s : State) (nbits w : Nat) (i : Instr), decodeTableWord nbits w = some i →
    step (s.withFetchWord nbits w) = exec i { s with rst := false }) ∧
  (∀ (s : State) (w : Request) (rest : List HostEvent), s.rst = false → s.requests = [] → s.events = .present w :: rest →
    step s = .next { s with requests := [w], events := rest }) ∧
  (∀ (s : State) (w : Request) (rest : List HostEvent), s.rst = true →
    (s.events = .present w :: rest ∨ s.events = .presentAborted w :: rest) →
    step s = .next { s with requests := s.requests ++ [w], events := rest }) ∧
  (∀ s : State, (s.rst = true ∨ s.requests = []) → s.events = [] → step s = .next s)

/-- 70_reset_and_hazards.md R207: no run stops or hangs: from any state, every state reached has a next one. R207 says it of commands;
that a step without one, an idle step, also answers a next state, and that there is no fault to answer instead, are log entries 6
and 9. -/
def Obligations.NoRunEverStops : Prop :=
  ∀ s : State, SafeRun s

/-! ## Encoding -/

/-- Decoding the request word of a command gives the command back, for every command and operand (30_encoding.md R60, R65), also
as a number of the opcode table's 36 bits in whole bytes. -/
def Obligations.DecodeOfEncodeIsTheCommand : Prop :=
  ∀ i : Instr, decode (encode i) = i ∧ decodeTableWord 40 (encode i).toNat = some i

/-- 30_encoding.md R66: each request word selects exactly one row of the opcode table, by its bits 35:32 alone, and decodes to a
command of that row. -/
def Obligations.EveryRequestSelectsOneRowByItsOpcode : Prop :=
  (∀ w : Request, ∃! r, r ∈ opcodeTable ∧ r.selects w = true) ∧
  (∀ (w : Request) (r : OpcodeRow), r ∈ opcodeTable → r.selects w = true → (decode w).mnemonic = r.mnemonic) ∧
  (∀ w w' : Request, w.extractLsb' 32 4 = w'.extractLsb' 32 4 → (decode w).mnemonic = (decode w').mnemonic)

/-- 30_encoding.md R61, R62: format D takes the whole data field as its operand, so its request word is recovered from the command;
format Z ignores it, so any data gives the command that data 0 gives. -/
def Obligations.OnlyFormatDReadsTheDataField : Prop :=
  ∀ w : Request,
    ((decode w).format = .D → encode (decode w) = w ∧ (decode w).data = w.extractLsb' 0 32) ∧
    ((decode w).format = .Z → encode (decode w) = w &&& 0xF00000000#36 ∧
      ∀ d : Word, decode (w.extractLsb' 32 4 ++ d) = decode w)

/-- Request words written out in the spec's text (30_encoding.md R60; 95_test_vectors.md §2, §3), one or more of each family. -/
def Obligations.RequestWordsOfTheSpecDecodeAsStated : Prop :=
  decode 0x000000000#36 = .status ∧ decode 0x0FFFFFFFF#36 = .status ∧ decode 0x188102204#36 = .absorb 0x88102204#32 ∧
  decode 0x200000000#36 = .twist ∧ decode 0x2FFFFFFFF#36 = .twist ∧ decode 0x300000000#36 = .untwist ∧
  decode 0x412345678#36 = .temper 0x12345678#32 ∧ decode 0x52B7E4A2D#36 = .untemper 0x2B7E4A2D#32 ∧
  decode 0x600000000#36 = .next ∧ decode 0x700000000#36 = .prev ∧ decode 0x800000270#36 = .readState 624#32 ∧
  decode 0x900000000#36 = .reserved9 ∧ decode 0xFFFFFFFFF#36 = .reservedF

/-- 30_encoding.md R63, R64: the response word has the status code in bits 34:32 and the data in bits 31:0; it reads back; and the
words with codes 5, 6, 7 are those that are no response. -/
def Obligations.ResponseWordsCarryStatusAndData : Prop :=
  (∀ r : Response, Response.ofWord (Response.toWord r) = some r ∧
    (Response.toWord r).extractLsb' 32 3 = Status.code r.status ∧ (Response.toWord r).extractLsb' 0 32 = r.data) ∧
  (∀ (w : ResponseWord) (r : Response), Response.ofWord w = some r → Response.toWord r = w) ∧
  (∀ w : ResponseWord, Response.ofWord w = none ↔ 5 ≤ (w.extractLsb' 32 3).toNat) ∧
  Status.code .ok = 0 ∧ Status.code .notReady = 1 ∧ Status.code .consistencyMismatch = 2 ∧
  Status.code .invalidArgument = 3 ∧ Status.code .illegalCommand = 4

/-- 30_encoding.md R69: a well-formed statement of the host's language assembles to a request that decodes to the command of its
mnemonic with the operand as data (0 in format Z), and `.illegal` to a reserved command's. That a line that is not well formed
assembles to no request is the model's choice (log entry 11). -/
def Obligations.AssembledLinesDecodeToTheirCommand : Prop :=
  (∀ m : Mnemonic, m.format = .Z → ∃ w, assemble (.statement m none) = some w ∧ decode w = m.instr 0 ∧ w.extractLsb' 0 32 = 0) ∧
  (∀ (m : Mnemonic) (n : Nat), m.format = .D → n < 2 ^ 32 →
    ∃ w, assemble (.statement m (some n)) = some w ∧ decode w = m.instr (BitVec.ofNat 32 n) ∧ (w.extractLsb' 0 32).toNat = n) ∧
  (∀ op : Nat, 9 ≤ op → op ≤ 15 → ∃ w, assemble (.illegal op) = some w ∧ (w.extractLsb' 32 4).toNat = op ∧
    (decode w).isReserved = true) ∧
  (∀ l : HostLine, l.wellFormed = false → assemble l = none)

/-- 30_encoding.md R69: `.rept n` to `.endr` stands for the enclosed lines `n` times, also around a nested block; `.reset verify=v`
is a reset with the strap at `v`, from any state: the reset values, `rst` released. That it leaves the requests that wait and the
responses delivered, and happens at once, before the host's other moves, are the model's choices (log entries 16, 5 and 17). -/
def Obligations.HostDirectivesRepeatAndReset : Prop :=
  (∀ (n : Nat) (body : List HostLine), (∀ l ∈ body, l ≠ .endr ∧ ∀ k, l ≠ .rept k) →
    expandRepeats (.rept n :: body ++ [.endr]) = some (List.replicate n body).flatten) ∧
  (∀ (m n : Nat) (l : HostLine), l ≠ .endr → (∀ k, l ≠ .rept k) →
    expandRepeats [.rept m, .rept n, l, .endr, .endr] = some (List.replicate (m * n) l)) ∧
  (∀ (v : Bool) (s : State), ∃ t, runLine (.reset v) s = .next (t, .done) ∧ AtResetValues t ∧ t.verify = v ∧ t.rst = false ∧
    t.requests = s.requests ∧ t.events = s.events ∧ t.responses = s.responses)
end

