-- ==== Sys2Proof/Laws/Decode.lean ====
section
/-! SUPPORT. The two fields of a request word that is put together from them. -/

namespace Sys2Proof

@[simp] theorem op_append (op : BitVec 4) (d : Word) : Request.op (op ++ d) = op := by
  unfold Request.op
  apply BitVec.eq_of_getLsbD_eq
  intro i hi
  rw [BitVec.getLsbD_extractLsb', BitVec.getLsbD_append]
  simp [hi]

@[simp] theorem data_append (op : BitVec 4) (d : Word) : Request.data (op ++ d) = d := by
  unfold Request.data
  apply BitVec.eq_of_getLsbD_eq
  intro i hi
  rw [BitVec.getLsbD_extractLsb', BitVec.getLsbD_append]
  simp [hi]

/-- Under a row's mask only the opcode is left. -/
theorem append_and_opcodeMask (op : BitVec 4) (d : Word) :
    (op ++ d : Request) &&& 0xF00000000#36 = op ++ (0#32 : Word) := by
  apply BitVec.eq_of_getLsbD_eq
  intro i hi
  rw [BitVec.getLsbD_and, BitVec.getLsbD_append, BitVec.getLsbD_append]
  by_cases h : i < 32
  · have : (0xF00000000#36).getLsbD i = false := by interval_cases i <;> rfl
    simp [h, this]
  · have : (0xF00000000#36).getLsbD i = true := by interval_cases i <;> rfl
    simp [h, this]

end Sys2Proof
end

