-- ==== Sys2Proof/Laws/State.lean ====
section
/-! SUPPORT. One lemma for each field of the state under each update, so that no proof unfolds a record update. -/

namespace Sys2Proof.Machine

variable (s : State)

/-! ## mapArray -/

@[simp] theorem mapArray_words (F : StateArray → StateArray) : (s.mapArray F).words = F s.words := rfl
@[simp] theorem mapArray_cursor (F : StateArray → StateArray) : (s.mapArray F).cursor = s.cursor := rfl
@[simp] theorem mapArray_ready (F : StateArray → StateArray) : (s.mapArray F).ready = s.ready := rfl
@[simp] theorem mapArray_verify (F : StateArray → StateArray) : (s.mapArray F).verify = s.verify := rfl
@[simp] theorem mapArray_cfgVerify (F : StateArray → StateArray) : (s.mapArray F).cfgVerify = s.cfgVerify := rfl
@[simp] theorem mapArray_rst (F : StateArray → StateArray) : (s.mapArray F).rst = s.rst := rfl
@[simp] theorem mapArray_requests (F : StateArray → StateArray) : (s.mapArray F).requests = s.requests := rfl
@[simp] theorem mapArray_events (F : StateArray → StateArray) : (s.mapArray F).events = s.events := rfl
@[simp] theorem mapArray_responses (F : StateArray → StateArray) : (s.mapArray F).responses = s.responses := rfl

/-! ## writeWord -/

@[simp] theorem writeWord_words (i : Index) (v : Word) : (s.writeWord i v).words = writeAt s.words i v := rfl
@[simp] theorem writeWord_cursor (i : Index) (v : Word) : (s.writeWord i v).cursor = s.cursor := rfl
@[simp] theorem writeWord_ready (i : Index) (v : Word) : (s.writeWord i v).ready = s.ready := rfl
@[simp] theorem writeWord_verify (i : Index) (v : Word) : (s.writeWord i v).verify = s.verify := rfl
@[simp] theorem writeWord_cfgVerify (i : Index) (v : Word) : (s.writeWord i v).cfgVerify = s.cfgVerify := rfl
@[simp] theorem writeWord_rst (i : Index) (v : Word) : (s.writeWord i v).rst = s.rst := rfl
@[simp] theorem writeWord_requests (i : Index) (v : Word) : (s.writeWord i v).requests = s.requests := rfl
@[simp] theorem writeWord_events (i : Index) (v : Word) : (s.writeWord i v).events = s.events := rfl
@[simp] theorem writeWord_responses (i : Index) (v : Word) : (s.writeWord i v).responses = s.responses := rfl

/-! ## advanceCursor -/

@[simp] theorem advanceCursor_words : (s.advanceCursor).words = s.words := rfl
@[simp] theorem advanceCursor_cursor : (s.advanceCursor).cursor = wrapAdd s.cursor 1 := rfl
@[simp] theorem advanceCursor_ready : (s.advanceCursor).ready = s.ready := rfl
@[simp] theorem advanceCursor_verify : (s.advanceCursor).verify = s.verify := rfl
@[simp] theorem advanceCursor_cfgVerify : (s.advanceCursor).cfgVerify = s.cfgVerify := rfl
@[simp] theorem advanceCursor_rst : (s.advanceCursor).rst = s.rst := rfl
@[simp] theorem advanceCursor_requests : (s.advanceCursor).requests = s.requests := rfl
@[simp] theorem advanceCursor_events : (s.advanceCursor).events = s.events := rfl
@[simp] theorem advanceCursor_responses : (s.advanceCursor).responses = s.responses := rfl

/-! ## retreatCursor -/

@[simp] theorem retreatCursor_words : (s.retreatCursor).words = s.words := rfl
@[simp] theorem retreatCursor_cursor : (s.retreatCursor).cursor = wrapPred s.cursor := rfl
@[simp] theorem retreatCursor_ready : (s.retreatCursor).ready = s.ready := rfl
@[simp] theorem retreatCursor_verify : (s.retreatCursor).verify = s.verify := rfl
@[simp] theorem retreatCursor_cfgVerify : (s.retreatCursor).cfgVerify = s.cfgVerify := rfl
@[simp] theorem retreatCursor_rst : (s.retreatCursor).rst = s.rst := rfl
@[simp] theorem retreatCursor_requests : (s.retreatCursor).requests = s.requests := rfl
@[simp] theorem retreatCursor_events : (s.retreatCursor).events = s.events := rfl
@[simp] theorem retreatCursor_responses : (s.retreatCursor).responses = s.responses := rfl

/-! ## respond -/

@[simp] theorem respond_words (st : Status) (d : Word) : (s.respond st d).words = s.words := rfl
@[simp] theorem respond_cursor (st : Status) (d : Word) : (s.respond st d).cursor = s.cursor := rfl
@[simp] theorem respond_ready (st : Status) (d : Word) : (s.respond st d).ready = s.ready := rfl
@[simp] theorem respond_verify (st : Status) (d : Word) : (s.respond st d).verify = s.verify := rfl
@[simp] theorem respond_cfgVerify (st : Status) (d : Word) : (s.respond st d).cfgVerify = s.cfgVerify := rfl
@[simp] theorem respond_rst (st : Status) (d : Word) : (s.respond st d).rst = s.rst := rfl
@[simp] theorem respond_requests (st : Status) (d : Word) : (s.respond st d).requests = s.requests := rfl
@[simp] theorem respond_events (st : Status) (d : Word) : (s.respond st d).events = s.events := rfl
@[simp] theorem respond_responses (st : Status) (d : Word) : (s.respond st d).responses = s.responses ++ [⟨st, d⟩] := rfl

/-! ## raise -/

@[simp] theorem raise_words (st : Status) (d : Word) : (s.raise st d).words = s.words := rfl
@[simp] theorem raise_cursor (st : Status) (d : Word) : (s.raise st d).cursor = s.cursor := rfl
@[simp] theorem raise_ready (st : Status) (d : Word) : (s.raise st d).ready = s.ready := rfl
@[simp] theorem raise_verify (st : Status) (d : Word) : (s.raise st d).verify = s.verify := rfl
@[simp] theorem raise_cfgVerify (st : Status) (d : Word) : (s.raise st d).cfgVerify = s.cfgVerify := rfl
@[simp] theorem raise_rst (st : Status) (d : Word) : (s.raise st d).rst = s.rst := rfl
@[simp] theorem raise_requests (st : Status) (d : Word) : (s.raise st d).requests = s.requests := rfl
@[simp] theorem raise_events (st : Status) (d : Word) : (s.raise st d).events = s.events := rfl
@[simp] theorem raise_responses (st : Status) (d : Word) : (s.raise st d).responses = s.responses ++ [⟨st, d⟩] := rfl

/-! ## applyReset -/

@[simp] theorem applyReset_words : (s.applyReset).words = Vector.replicate 624 0 := rfl
@[simp] theorem applyReset_cursor : (s.applyReset).cursor = 0 := rfl
@[simp] theorem applyReset_ready : (s.applyReset).ready = false := rfl
@[simp] theorem applyReset_verify : (s.applyReset).verify = s.cfgVerify := rfl
@[simp] theorem applyReset_cfgVerify : (s.applyReset).cfgVerify = s.cfgVerify := rfl
@[simp] theorem applyReset_rst : (s.applyReset).rst = s.rst := rfl
@[simp] theorem applyReset_requests : (s.applyReset).requests = s.requests := rfl
@[simp] theorem applyReset_events : (s.applyReset).events = s.events := rfl
@[simp] theorem applyReset_responses : (s.applyReset).responses = s.responses := rfl

/-! ## assertReset -/

@[simp] theorem assertReset_words : (s.assertReset).words = Vector.replicate 624 0 := rfl
@[simp] theorem assertReset_cursor : (s.assertReset).cursor = 0 := rfl
@[simp] theorem assertReset_ready : (s.assertReset).ready = false := rfl
@[simp] theorem assertReset_verify : (s.assertReset).verify = s.cfgVerify := rfl
@[simp] theorem assertReset_cfgVerify : (s.assertReset).cfgVerify = s.cfgVerify := rfl
@[simp] theorem assertReset_rst : (s.assertReset).rst = true := rfl
@[simp] theorem assertReset_requests : (s.assertReset).requests = s.requests := rfl
@[simp] theorem assertReset_events : (s.assertReset).events = s.events := rfl
@[simp] theorem assertReset_responses : (s.assertReset).responses = s.responses := rfl

/-! ## present -/

@[simp] theorem present_words (w : Request) : (s.present w).words = s.words := rfl
@[simp] theorem present_cursor (w : Request) : (s.present w).cursor = s.cursor := rfl
@[simp] theorem present_ready (w : Request) : (s.present w).ready = s.ready := rfl
@[simp] theorem present_verify (w : Request) : (s.present w).verify = s.verify := rfl
@[simp] theorem present_cfgVerify (w : Request) : (s.present w).cfgVerify = s.cfgVerify := rfl
@[simp] theorem present_rst (w : Request) : (s.present w).rst = s.rst := rfl
@[simp] theorem present_requests (w : Request) : (s.present w).requests = s.requests ++ [w] := rfl
@[simp] theorem present_events (w : Request) : (s.present w).events = s.events := rfl
@[simp] theorem present_responses (w : Request) : (s.present w).responses = s.responses := rfl

/-! ## markReadyOnWrap -/

@[simp] theorem markReadyOnWrap_words : s.markReadyOnWrap.words = s.words := by
  unfold State.markReadyOnWrap; split <;> simp_all
@[simp] theorem markReadyOnWrap_cursor : s.markReadyOnWrap.cursor = s.cursor := by
  unfold State.markReadyOnWrap; split <;> simp_all
@[simp] theorem markReadyOnWrap_ready : s.markReadyOnWrap.ready = (decide (s.cursor = 0) || s.ready) := by
  unfold State.markReadyOnWrap; split <;> simp_all
@[simp] theorem markReadyOnWrap_verify : s.markReadyOnWrap.verify = s.verify := by
  unfold State.markReadyOnWrap; split <;> simp_all
@[simp] theorem markReadyOnWrap_cfgVerify : s.markReadyOnWrap.cfgVerify = s.cfgVerify := by
  unfold State.markReadyOnWrap; split <;> simp_all
@[simp] theorem markReadyOnWrap_rst : s.markReadyOnWrap.rst = s.rst := by
  unfold State.markReadyOnWrap; split <;> simp_all
@[simp] theorem markReadyOnWrap_requests : s.markReadyOnWrap.requests = s.requests := by
  unfold State.markReadyOnWrap; split <;> simp_all
@[simp] theorem markReadyOnWrap_events : s.markReadyOnWrap.events = s.events := by
  unfold State.markReadyOnWrap; split <;> simp_all
@[simp] theorem markReadyOnWrap_responses : s.markReadyOnWrap.responses = s.responses := by
  unfold State.markReadyOnWrap; split <;> simp_all

/-! ## twistAtZero -/

@[simp] theorem twistAtZero_words : s.twistAtZero.words = if s.cursor = 0 then twist s.words else s.words := by
  unfold State.twistAtZero; split <;> simp_all
@[simp] theorem twistAtZero_cursor : s.twistAtZero.cursor = s.cursor := by
  unfold State.twistAtZero; split <;> simp_all
@[simp] theorem twistAtZero_ready : s.twistAtZero.ready = s.ready := by
  unfold State.twistAtZero; split <;> simp_all
@[simp] theorem twistAtZero_verify : s.twistAtZero.verify = s.verify := by
  unfold State.twistAtZero; split <;> simp_all
@[simp] theorem twistAtZero_cfgVerify : s.twistAtZero.cfgVerify = s.cfgVerify := by
  unfold State.twistAtZero; split <;> simp_all
@[simp] theorem twistAtZero_rst : s.twistAtZero.rst = s.rst := by
  unfold State.twistAtZero; split <;> simp_all
@[simp] theorem twistAtZero_requests : s.twistAtZero.requests = s.requests := by
  unfold State.twistAtZero; split <;> simp_all
@[simp] theorem twistAtZero_events : s.twistAtZero.events = s.events := by
  unfold State.twistAtZero; split <;> simp_all
@[simp] theorem twistAtZero_responses : s.twistAtZero.responses = s.responses := by
  unfold State.twistAtZero; split <;> simp_all

/-! ## untwistAtZero -/

@[simp] theorem untwistAtZero_words : s.untwistAtZero.words = if s.cursor = 0 then untwist s.words else s.words := by
  unfold State.untwistAtZero; split <;> simp_all
@[simp] theorem untwistAtZero_cursor : s.untwistAtZero.cursor = s.cursor := by
  unfold State.untwistAtZero; split <;> simp_all
@[simp] theorem untwistAtZero_ready : s.untwistAtZero.ready = s.ready := by
  unfold State.untwistAtZero; split <;> simp_all
@[simp] theorem untwistAtZero_verify : s.untwistAtZero.verify = s.verify := by
  unfold State.untwistAtZero; split <;> simp_all
@[simp] theorem untwistAtZero_cfgVerify : s.untwistAtZero.cfgVerify = s.cfgVerify := by
  unfold State.untwistAtZero; split <;> simp_all
@[simp] theorem untwistAtZero_rst : s.untwistAtZero.rst = s.rst := by
  unfold State.untwistAtZero; split <;> simp_all
@[simp] theorem untwistAtZero_requests : s.untwistAtZero.requests = s.requests := by
  unfold State.untwistAtZero; split <;> simp_all
@[simp] theorem untwistAtZero_events : s.untwistAtZero.events = s.events := by
  unfold State.untwistAtZero; split <;> simp_all
@[simp] theorem untwistAtZero_responses : s.untwistAtZero.responses = s.responses := by
  unfold State.untwistAtZero; split <;> simp_all

/-! ## releaseReset -/

@[simp] theorem releaseReset_words : (s.releaseReset).words = if s.rst then Vector.replicate 624 0 else s.words := by
  unfold State.releaseReset; split <;> simp_all
@[simp] theorem releaseReset_cursor : (s.releaseReset).cursor = if s.rst then 0 else s.cursor := by
  unfold State.releaseReset; split <;> simp_all
@[simp] theorem releaseReset_ready : (s.releaseReset).ready = (!s.rst && s.ready) := by
  unfold State.releaseReset; split <;> simp_all
@[simp] theorem releaseReset_verify : (s.releaseReset).verify = if s.rst then s.cfgVerify else s.verify := by
  unfold State.releaseReset; split <;> simp_all
@[simp] theorem releaseReset_cfgVerify : (s.releaseReset).cfgVerify = s.cfgVerify := by
  unfold State.releaseReset; split <;> simp_all
@[simp] theorem releaseReset_rst : (s.releaseReset).rst = false := by
  unfold State.releaseReset; split <;> simp_all
@[simp] theorem releaseReset_requests : (s.releaseReset).requests = s.requests := by
  unfold State.releaseReset; split <;> simp_all
@[simp] theorem releaseReset_events : (s.releaseReset).events = s.events := by
  unfold State.releaseReset; split <;> simp_all
@[simp] theorem releaseReset_responses : (s.releaseReset).responses = s.responses := by
  unfold State.releaseReset; split <;> simp_all

/-! ## setStrap -/

@[simp] theorem setStrap_words (level : Bool) : (s.setStrap level).words = if s.rst then Vector.replicate 624 0 else s.words := by
  unfold State.setStrap; split <;> simp_all
@[simp] theorem setStrap_cursor (level : Bool) : (s.setStrap level).cursor = if s.rst then 0 else s.cursor := by
  unfold State.setStrap; split <;> simp_all
@[simp] theorem setStrap_ready (level : Bool) : (s.setStrap level).ready = (!s.rst && s.ready) := by
  unfold State.setStrap; split <;> simp_all
@[simp] theorem setStrap_verify (level : Bool) : (s.setStrap level).verify = if s.rst then level else s.verify := by
  unfold State.setStrap; split <;> simp_all
@[simp] theorem setStrap_cfgVerify (level : Bool) : (s.setStrap level).cfgVerify = level := by
  unfold State.setStrap; split <;> simp_all
@[simp] theorem setStrap_rst (level : Bool) : (s.setStrap level).rst = s.rst := by
  unfold State.setStrap; split <;> simp_all
@[simp] theorem setStrap_requests (level : Bool) : (s.setStrap level).requests = s.requests := by
  unfold State.setStrap; split <;> simp_all
@[simp] theorem setStrap_events (level : Bool) : (s.setStrap level).events = s.events := by
  unfold State.setStrap; split <;> simp_all
@[simp] theorem setStrap_responses (level : Bool) : (s.setStrap level).responses = s.responses := by
  unfold State.setStrap; split <;> simp_all

/-! ## resetWith -/

@[simp] theorem resetWith_words (v : Bool) : (State.resetWith v).words = Vector.replicate 624 0 := rfl
@[simp] theorem resetWith_cursor (v : Bool) : (State.resetWith v).cursor = 0 := rfl
@[simp] theorem resetWith_ready (v : Bool) : (State.resetWith v).ready = false := rfl
@[simp] theorem resetWith_verify (v : Bool) : (State.resetWith v).verify = v := rfl
@[simp] theorem resetWith_cfgVerify (v : Bool) : (State.resetWith v).cfgVerify = v := rfl
@[simp] theorem resetWith_rst (v : Bool) : (State.resetWith v).rst = false := rfl
@[simp] theorem resetWith_requests (v : Bool) : (State.resetWith v).requests = [] := rfl
@[simp] theorem resetWith_events (v : Bool) : (State.resetWith v).events = [] := rfl
@[simp] theorem resetWith_responses (v : Bool) : (State.resetWith v).responses = [] := rfl

end Sys2Proof.Machine
end

