-- ==== Sys2Proof/Laws/Ops.lean ====
section
/-! SUPPORT. What each shared operation does, said once: index arithmetic, the array, completing a command, the forward step,
the paths of ABSORB, the ports and one step. Proofs cite these and do not unfold the operations. -/

namespace Sys2Proof.Machine

/-! ## Index arithmetic -/

@[simp] theorem wrapAdd_val (i : Index) (k : Nat) : (wrapAdd i k).val = (i.val + k) % 624 := rfl

@[simp] theorem wrapPred_val (i : Index) : (wrapPred i).val = (i.val + 623) % 624 := by
  have := i.isLt
  unfold wrapPred
  split
  · rename_i h; rw [h]; rfl
  · simp only; omega

theorem wrapPred_wrapAdd_one (i : Index) : wrapPred (wrapAdd i 1) = i := by
  apply Fin.ext; have := i.isLt; simp only [wrapPred_val, wrapAdd_val]; omega

theorem wrapAdd_one_wrapPred (i : Index) : wrapAdd (wrapPred i) 1 = i := by
  apply Fin.ext; have := i.isLt; simp only [wrapPred_val, wrapAdd_val]; omega

theorem wrapAdd_zero_of_lt {k : Nat} (h : k < 624) : wrapAdd 0 k = ⟨k, h⟩ := by
  apply Fin.ext
  rw [wrapAdd_val]
  exact (by rw [show ((0 : Index).val) = 0 from rfl, Nat.zero_add, Nat.mod_eq_of_lt h])

/-! ## The state array -/

/-- A read after a write: the word written at its own index, the old word at every other. -/
theorem readAt_writeAt (S : StateArray) (i j : Index) (v : Word) :
    readAt (writeAt S i v) j = if j = i then v else readAt S j := by
  unfold readAt writeAt
  rw [Vector.getElem_set]
  by_cases h : j = i
  · simp [h]
  · have : i.val ≠ j.val := fun e => h (Fin.ext e.symm)
    simp [h, this]

@[simp] theorem readAt_writeAt_same (S : StateArray) (i : Index) (v : Word) : readAt (writeAt S i v) i = v := by
  simp [readAt_writeAt]

theorem readAt_writeAt_ne (S : StateArray) {i j : Index} (v : Word) (h : j ≠ i) :
    readAt (writeAt S i v) j = readAt S j := by
  simp [readAt_writeAt, h]

/-- Two arrays that read alike at every index are the same array. -/
theorem stateArray_ext {S T : StateArray} (h : ∀ i : Index, readAt S i = readAt T i) : S = T := by
  apply Vector.ext
  intro i hi
  exact h ⟨i, hi⟩

@[simp] theorem readAt_replicate (v : Word) (i : Index) : readAt (Vector.replicate 624 v) i = v := by
  simp [readAt]

/-- Writing back the word that is there changes nothing. -/
theorem writeAt_readAt (S : StateArray) (i : Index) : writeAt S i (readAt S i) = S := by
  apply stateArray_ext
  intro j
  rw [readAt_writeAt]
  split
  · rename_i h; rw [h]
  · rfl

/-! ## Completing a command -/

/-- `respond` delivers exactly its response and touches nothing else. -/
theorem respond_answers (s : State) (st : Status) (d : Word) : Answers s (s.respond st d) ⟨st, d⟩ :=
  ⟨rfl, rfl, rfl, rfl, rfl⟩

theorem respond_sameBlock (s : State) (st : Status) (d : Word) : SameBlock s (s.respond st d) := ⟨rfl, rfl, rfl, rfl⟩

/-- A state written out with one response more, whatever its architectural state: that response is delivered. (Its proof sees no
index arithmetic, where `rfl` on a state written out would unfold it.) -/
theorem answers_update (s : State) (ws : StateArray) (c : Index) (rd vf : Bool) (r : Response) :
    Answers s { s with words := ws, cursor := c, ready := rd, verify := vf, responses := s.responses ++ [r] } r :=
  ⟨rfl, rfl, rfl, rfl, rfl⟩

/-- Two responses delivered from the same state: the same response. -/
theorem answers_unique {s t : State} {r r' : Response} (h : Answers s t r) (h' : Answers s t r') : r = r' := by
  simpa using h.responses.symm.trans h'.responses

/-! ## The forward step and the paths of ABSORB -/

/-- All that the forward step does: it returns the word at the cursor of the generation it reads, tempered, keeps that
generation and advances the cursor. -/
theorem predictStep_spec (s : State) :
    predictStep s = (temper (readAt (generationRead s) s.cursor),
      { s with words := generationRead s, cursor := wrapAdd s.cursor 1 }) := by
  unfold predictStep predictedWord State.outputWord State.twistAtZero generationRead
  split <;> simp only [State.advanceCursor, State.mapArray]

/-- All that the pre-readiness path does. -/
theorem absorbFill_spec (raw : Word) (s : State) :
    absorbFill raw s = { s with
      words := writeAt s.words s.cursor (untemper raw),
      cursor := wrapAdd s.cursor 1,
      ready := decide (wrapAdd s.cursor 1 = 0) || s.ready,
      responses := s.responses ++ [⟨.ok, 0⟩] } := by
  unfold absorbFill State.markReadyOnWrap
  by_cases h : wrapAdd s.cursor 1 = 0
  · simp [h, State.respond, State.advanceCursor, State.writeWord]
  · simp [h, State.respond, State.advanceCursor, State.writeWord]

/-- All that the verification path does. -/
theorem absorbVerify_spec (raw : Word) (s : State) :
    absorbVerify raw s =
      let p := temper (readAt (generationRead s) s.cursor)
      { s with
        words := generationRead s,
        cursor := wrapAdd s.cursor 1,
        responses := s.responses ++ [⟨if p = raw then .ok else .consistencyMismatch, p⟩] } := by
  unfold absorbVerify
  rw [predictStep_spec]
  dsimp only
  split <;> simp only [State.respond, State.raise]

/-- All that the store path does. -/
theorem absorbStore_spec (raw : Word) (s : State) :
    absorbStore raw s = { s with
      words := writeAt (generationRead s) s.cursor (untemper raw),
      cursor := wrapAdd s.cursor 1,
      responses := s.responses ++ [⟨.ok, 0⟩] } := by
  unfold absorbStore State.twistAtZero generationRead
  split <;> simp only [State.advanceCursor, State.mapArray, State.writeWord, State.respond]

/-! ## The ports and one step -/

/-- A request is accepted exactly where `rst` is not asserted and one waits; it is then the oldest one. -/
theorem acceptRequest_eq_some_iff (s t : State) (w : Request) :
    acceptRequest s = some (w, t) ↔ s.rst = false ∧ ∃ rest, s.requests = w :: rest ∧ t = { s with requests := rest } := by
  unfold acceptRequest
  cases hr : s.rst <;> cases hq : s.requests <;> simp [eq_comm]

/-- None is accepted exactly where `rst` is asserted or none waits. -/
theorem acceptRequest_eq_none_iff (s : State) : acceptRequest s = none ↔ s.rst = true ∨ s.requests = [] := by
  unfold acceptRequest
  cases hr : s.rst <;> cases hq : s.requests <;> simp

/-- All that a step can do: run the oldest request, decoded, or make the host's next move. -/
theorem step_cases {s t : State} (h : step s = .next t) :
    (∃ w rest, s.rst = false ∧ s.requests = w :: rest ∧ exec (decode w) { s with requests := rest } = .next t) ∨
    ((s.rst = true ∨ s.requests = []) ∧ t = idle s) := by
  unfold step at h
  split at h
  · rename_i w u hu
    obtain ⟨hr, rest, hq, rfl⟩ := (acceptRequest_eq_some_iff _ _ _).1 hu
    exact .inl ⟨w, rest, hr, hq, h⟩
  · rename_i hn
    exact .inr ⟨(acceptRequest_eq_none_iff _).1 hn, by injection h with h; exact h.symm⟩

/-- All that an idle step can do. -/
theorem idle_cases (s : State) :
    (s.events = [] ∧ idle s = s) ∨ (∃ e rest, s.events = e :: rest ∧ idle s = hostMove e { s with events := rest }) := by
  unfold idle
  cases h : s.events with
  | nil => exact .inl ⟨rfl, rfl⟩
  | cons e rest => exact .inr ⟨e, rest, rfl, rfl⟩

/-- A request presented where nothing waits and `rst` is not asserted is the one the next step runs: there the host's side, which
runs a command with exec at once (log entry 17), does what the ports do. -/
theorem step_present {s : State} (w : Request) (hr : s.rst = false) (hq : s.requests = []) :
    step (s.present w) = exec (decode w) s := by
  have hs : ({ s.present w with requests := [] } : State) = s := by
    simp only [State.present, ← hq]
  have ha : acceptRequest (s.present w) = some (w, s) :=
    (acceptRequest_eq_some_iff _ _ _).2 ⟨hr, [], by simp [hq], hs.symm⟩
  unfold step
  rw [ha]

/-- No move of the host delivers a response or takes back a request that waits; a presentation adds its request behind them (one
that is to be abandoned only where `rst` is asserted already), and no other move adds one. -/
theorem hostMove_keeps (e : HostEvent) (s : State) :
    (hostMove e s).responses = s.responses ∧ (hostMove e s).events = s.events ∧
      (hostMove e s).requests = s.requests ++
        match e with
        | .present w => [w]
        | .presentAborted w => if s.rst then [w] else []
        | .strap _ => []
        | .rst _ => [] := by
  cases e with
  | present w => exact ⟨rfl, rfl, rfl⟩
  | presentAborted w =>
    unfold hostMove
    cases s.rst
    · exact ⟨rfl, rfl, (List.append_nil _).symm⟩
    · exact ⟨rfl, rfl, rfl⟩
  | strap level => exact ⟨by simp [hostMove], by simp [hostMove], by simp [hostMove]⟩
  | rst level =>
    cases level
    · exact ⟨by simp [hostMove], by simp [hostMove], by simp [hostMove]⟩
    · exact ⟨rfl, rfl, (List.append_nil _).symm⟩

end Sys2Proof.Machine
end

