-- ==== Sys2Proof/Laws/Dispatch.lean ====
section
/-! SUPPORT. Each arm of exec, and what the meanings that branch do on each of their branches. -/

namespace Sys2Proof.Machine

variable (s : State)

/-! ## The arms -/

@[simp] theorem exec_status : exec .status s = execStatus s := rfl
@[simp] theorem exec_absorb (raw : Word) : exec (.absorb raw) s = execAbsorb raw s := rfl
@[simp] theorem exec_twist : exec .twist s = execTwist s := rfl
@[simp] theorem exec_untwist : exec .untwist s = execUntwist s := rfl
@[simp] theorem exec_temper (y : Word) : exec (.temper y) s = execTemper y s := rfl
@[simp] theorem exec_untemper (y : Word) : exec (.untemper y) s = execUntemper y s := rfl
@[simp] theorem exec_next : exec .next s = execNext s := rfl
@[simp] theorem exec_prev : exec .prev s = execPrev s := rfl
@[simp] theorem exec_readState (index : Word) : exec (.readState index) s = execReadState index s := rfl
@[simp] theorem exec_reserved9 : exec .reserved9 s = execReserved9 s := rfl
@[simp] theorem exec_reservedA : exec .reservedA s = execReservedA s := rfl
@[simp] theorem exec_reservedB : exec .reservedB s = execReservedB s := rfl
@[simp] theorem exec_reservedC : exec .reservedC s = execReservedC s := rfl
@[simp] theorem exec_reservedD : exec .reservedD s = execReservedD s := rfl
@[simp] theorem exec_reservedE : exec .reservedE s = execReservedE s := rfl
@[simp] theorem exec_reservedF : exec .reservedF s = execReservedF s := rfl

/-! ## ABSORB -/

theorem execAbsorb_fill (raw : Word) (h : s.ready = false) : execAbsorb raw s = .next (absorbFill raw s) := by
  simp [execAbsorb, h]

theorem execAbsorb_verify (raw : Word) (h : s.ready = true) (hv : s.verify = true) :
    execAbsorb raw s = .next (absorbVerify raw s) := by
  simp [execAbsorb, h, hv]

theorem execAbsorb_store (raw : Word) (h : s.ready = true) (hv : s.verify = false) :
    execAbsorb raw s = .next (absorbStore raw s) := by
  simp [execAbsorb, h, hv]

/-! ## TWIST and UNTWIST (a plain `rfl` would unfold the pass) -/

theorem execTwist_spec :
    execTwist s = .next { s with words := twist s.words, responses := s.responses ++ [⟨.ok, 0⟩] } := by
  simp only [execTwist, State.mapArray, State.respond]

theorem execUntwist_spec :
    execUntwist s = .next { s with words := untwist s.words, responses := s.responses ++ [⟨.ok, 0⟩] } := by
  simp only [execUntwist, State.mapArray, State.respond]

/-! ## NEXT and PREV -/

theorem execNext_notReady (h : s.ready = false) : execNext s = .next (s.respond .notReady 0) := by
  simp [execNext, h, State.raise]

theorem execNext_ready (h : s.ready = true) :
    execNext s = .next { s with
      words := generationRead s,
      cursor := wrapAdd s.cursor 1,
      responses := s.responses ++ [⟨.ok, temper (readAt (generationRead s) s.cursor)⟩] } := by
  unfold execNext
  rw [predictStep_spec]
  simp [h, State.respond]

theorem execPrev_notReady (h : s.ready = false) : execPrev s = .next (s.respond .notReady 0) := by
  simp [execPrev, h, State.raise]

theorem execPrev_ready (h : s.ready = true) :
    execPrev s = .next { s with
      words := if wrapPred s.cursor = 0 then untwist s.words else s.words,
      cursor := wrapPred s.cursor,
      responses := s.responses ++ [⟨.ok, temper (readAt s.words (wrapPred s.cursor))⟩] } := by
  unfold execPrev State.untwistAtZero
  by_cases hc : wrapPred s.cursor = 0 <;>
    simp [h, hc, State.respond, State.outputWord, State.retreatCursor, State.mapArray]

/-! ## READ_STATE -/

theorem execReadState_inRange {index : Word} (h : index.toNat < 624) :
    execReadState index s = .next (s.respond .ok (readAt s.words ⟨index.toNat, h⟩)) := by
  simp [execReadState, stateIndex, h]

theorem execReadState_outOfRange {index : Word} (h : 624 ≤ index.toNat) :
    execReadState index s = .next (s.respond .invalidArgument 0) := by
  have : ¬ index.toNat < 624 := by omega
  simp [execReadState, stateIndex, this, State.raise]

end Sys2Proof.Machine
end

