-- ==== Sys2Proof/Laws/PerInstr.lean ====
section
/-! SUPPORT. Statements about every command as syntax, one lemma for each constructor. Family EncodesItsRow: a command's request
word belongs to the opcode table's row of its own mnemonic and format. -/

namespace Sys2Proof.Laws.EncodesItsRow

/-- The command's request word is selected by the row that has its mnemonic and its format. -/
def Statement (i : Instr) : Prop :=
  ∃ r ∈ opcodeTable, r.mnemonic = i.mnemonic ∧ r.format = i.format ∧ r.selects (encode i) = true

/-- A row of the table with the command's names, the common mask and the command's opcode over zeros as its pattern. -/
theorem of_row {i : Instr} (r : OpcodeRow) (hr : r ∈ opcodeTable) (hm : r.mnemonic = i.mnemonic) (hf : r.format = i.format)
    (hk : r.mask = 0xF00000000#36) (hp : r.pattern = (i.opcode ++ (0#32 : Word) : Request)) : Statement i :=
  ⟨r, hr, hm, hf, by unfold OpcodeRow.selects encode; rw [hk, hp, append_and_opcodeMask, beq_self_eq_true]⟩

theorem status : Statement .status :=
  of_row ⟨"STATUS", .Z, 0xF00000000#36, 0x000000000#36⟩ (by simp [opcodeTable]) rfl rfl rfl (by rw [Instr.opcode]; decide)

theorem absorb (raw : Word) : Statement (.absorb raw) :=
  of_row ⟨"ABSORB", .D, 0xF00000000#36, 0x100000000#36⟩ (by simp [opcodeTable]) rfl rfl rfl (by rw [Instr.opcode]; decide)

theorem twist : Statement .twist :=
  of_row ⟨"TWIST", .Z, 0xF00000000#36, 0x200000000#36⟩ (by simp [opcodeTable]) rfl rfl rfl (by rw [Instr.opcode]; decide)

theorem untwist : Statement .untwist :=
  of_row ⟨"UNTWIST", .Z, 0xF00000000#36, 0x300000000#36⟩ (by simp [opcodeTable]) rfl rfl rfl (by rw [Instr.opcode]; decide)

theorem temper (y : Word) : Statement (.temper y) :=
  of_row ⟨"TEMPER", .D, 0xF00000000#36, 0x400000000#36⟩ (by simp [opcodeTable]) rfl rfl rfl (by rw [Instr.opcode]; decide)

theorem untemper (y : Word) : Statement (.untemper y) :=
  of_row ⟨"UNTEMPER", .D, 0xF00000000#36, 0x500000000#36⟩ (by simp [opcodeTable]) rfl rfl rfl (by rw [Instr.opcode]; decide)

theorem next : Statement .next :=
  of_row ⟨"NEXT", .Z, 0xF00000000#36, 0x600000000#36⟩ (by simp [opcodeTable]) rfl rfl rfl (by rw [Instr.opcode]; decide)

theorem prev : Statement .prev :=
  of_row ⟨"PREV", .Z, 0xF00000000#36, 0x700000000#36⟩ (by simp [opcodeTable]) rfl rfl rfl (by rw [Instr.opcode]; decide)

theorem readState (index : Word) : Statement (.readState index) :=
  of_row ⟨"READ_STATE", .D, 0xF00000000#36, 0x800000000#36⟩ (by simp [opcodeTable]) rfl rfl rfl (by rw [Instr.opcode]; decide)

theorem reserved9 : Statement .reserved9 :=
  of_row ⟨"RESERVED_9", .Z, 0xF00000000#36, 0x900000000#36⟩ (by simp [opcodeTable]) rfl rfl rfl (by rw [Instr.opcode]; decide)

theorem reservedA : Statement .reservedA :=
  of_row ⟨"RESERVED_A", .Z, 0xF00000000#36, 0xA00000000#36⟩ (by simp [opcodeTable]) rfl rfl rfl (by rw [Instr.opcode]; decide)

theorem reservedB : Statement .reservedB :=
  of_row ⟨"RESERVED_B", .Z, 0xF00000000#36, 0xB00000000#36⟩ (by simp [opcodeTable]) rfl rfl rfl (by rw [Instr.opcode]; decide)

theorem reservedC : Statement .reservedC :=
  of_row ⟨"RESERVED_C", .Z, 0xF00000000#36, 0xC00000000#36⟩ (by simp [opcodeTable]) rfl rfl rfl (by rw [Instr.opcode]; decide)

theorem reservedD : Statement .reservedD :=
  of_row ⟨"RESERVED_D", .Z, 0xF00000000#36, 0xD00000000#36⟩ (by simp [opcodeTable]) rfl rfl rfl (by rw [Instr.opcode]; decide)

theorem reservedE : Statement .reservedE :=
  of_row ⟨"RESERVED_E", .Z, 0xF00000000#36, 0xE00000000#36⟩ (by simp [opcodeTable]) rfl rfl rfl (by rw [Instr.opcode]; decide)

theorem reservedF : Statement .reservedF :=
  of_row ⟨"RESERVED_F", .Z, 0xF00000000#36, 0xF00000000#36⟩ (by simp [opcodeTable]) rfl rfl rfl (by rw [Instr.opcode]; decide)

end Sys2Proof.Laws.EncodesItsRow
end

