-- ==== Sys2Proof/Laws/Twist.lean ====
section
/-! SUPPORT. The two passes, step by step: a step writes its own word and no other, so a prefix of a pass leaves the words ahead
of it alone, and a word once written stays. -/

namespace Sys2Proof.Machine

/-! ## Twist -/

/-- Step `i` of the pass, read at any index. -/
theorem readAt_twistStep (S : StateArray) (i j : Index) :
    readAt (twistStep S i) j =
      if j = i then readAt S (wrapAdd i 397) ^^^ g (combine (readAt S i) (readAt S (wrapAdd i 1))) else readAt S j := by
  unfold twistStep; rw [readAt_writeAt]

theorem twistPass_succ (k : Nat) (S : StateArray) : twistPass (k + 1) S = twistStep (twistPass k S) (wrapAdd 0 k) := rfl

/-- The first `k` steps leave the words from index `k` on alone. -/
theorem readAt_twistPass_ahead (S : StateArray) (k : Nat) (j : Index) (h : k ≤ j.val) :
    readAt (twistPass k S) j = readAt S j := by
  induction k with
  | zero => rfl
  | succ k ih =>
    have hk : k < 624 := by have := j.isLt; omega
    rw [twistPass_succ, readAt_twistStep, wrapAdd_zero_of_lt hk, if_neg, ih (by omega)]
    intro e; rw [e] at h; simp at h

/-- A word once written stays to the end of the pass. -/
theorem readAt_twistPass_behind (S : StateArray) (k : Nat) (hk : k ≤ 624) (j : Index) (h : j.val < k) :
    readAt (twistPass k S) j = readAt (twistPass (j.val + 1) S) j := by
  induction k with
  | zero => omega
  | succ k ih =>
    by_cases e : k = j.val
    · rw [e]
    · rw [twistPass_succ, readAt_twistStep, wrapAdd_zero_of_lt (by omega), if_neg, ih (by omega) (by omega)]
      intro e'; apply e; rw [e']

/-! ## Untwist -/

/-- Step `i` of the pass, read at any index. -/
theorem readAt_untwistStep (S : StateArray) (i j : Index) :
    readAt (untwistStep S i) j =
      if j = i then
        (gInv (readAt S i ^^^ readAt S (wrapAdd i 397)) &&& Config.UPPER) |||
          (gInv (readAt S (wrapPred i) ^^^ readAt S (wrapAdd (wrapPred i) 397)) &&& Config.LOWER)
      else readAt S j := by
  unfold untwistStep; rw [readAt_writeAt]

theorem untwistPass_succ (k : Nat) (S : StateArray) :
    untwistPass (k + 1) S = untwistStep (untwistPass k S) (wrapAdd 0 (623 - k)) := rfl

/-- The first `k` steps leave the words below index `624 - k` alone. -/
theorem readAt_untwistPass_ahead (S : StateArray) (k : Nat) (j : Index) (h : j.val + k < 624) :
    readAt (untwistPass k S) j = readAt S j := by
  induction k with
  | zero => rfl
  | succ k ih =>
    rw [untwistPass_succ, readAt_untwistStep, wrapAdd_zero_of_lt (by omega), if_neg, ih (by omega)]
    intro e; rw [e] at h; simp at h; omega

/-- A word once written stays to the end of the pass. -/
theorem readAt_untwistPass_behind (S : StateArray) (k : Nat) (hk : k ≤ 624) (j : Index) (h : 624 ≤ j.val + k) :
    readAt (untwistPass k S) j = readAt (untwistPass (624 - j.val) S) j := by
  induction k with
  | zero => have := j.isLt; omega
  | succ k ih =>
    by_cases e : k + 1 = 624 - j.val
    · rw [e]
    · rw [untwistPass_succ, readAt_untwistStep, wrapAdd_zero_of_lt (by omega), if_neg, ih (by omega) (by omega)]
      intro e'; apply e; rw [e']; simp only; omega

end Sys2Proof.Machine
end

