-- ==== Sys2Proof/Tests/Slice0.lean ====
section
/-! SUPPORT. The model's own tests. Every expected value is written in spec/ (95_test_vectors.md where nothing else is named) or
worked out by hand from a rule. Then one witness for each statement that has hypotheses. -/

namespace Sys2Proof.Tests

open Sys2Proof.Machine

/-! ## Small states -/

/-- Every word `0x80000000`, with the flags and the cursor given: A624 of 95_test_vectors.md §2.3 where `ready` and cursor 0. -/
def filled (verify ready : Bool) (cursor : Index) : State :=
  { State.resetWith verify with words := Vector.replicate 624 0x80000000#32, ready := ready, cursor := cursor }

/-- Every word zero. -/
def blank (verify ready : Bool) (cursor : Index) : State :=
  { State.resetWith verify with ready := ready, cursor := cursor }

/-- The last response of a command run from a state. -/
def answer (i : Instr) (s : State) : Option Response :=
  match exec i s with
  | .next t => t.responses.getLast?
  | .fault _ => none
  | .refused _ => none

/-- A word of the array after a command. -/
def wordAfter (i : Instr) (s : State) (j : Index) : Option Word :=
  match exec i s with
  | .next t => some (readAt t.words j)
  | .fault _ => none
  | .refused _ => none

/-- The cursor and the readiness flag after a command. -/
def cursorAfter (i : Instr) (s : State) : Option (Index × Bool) :=
  match exec i s with
  | .next t => some (t.cursor, t.ready)
  | .fault _ => none
  | .refused _ => none

/-! ## What is not well formed is refused -/

theorem test_wf_refuses_37_bit_number : ¬ RequestNumber.WellFormed 0x1000000000 := by decide
theorem test_decode_rejects_37_bit_number : decodeNumber 0x1000000000 = .error .widerThanRequest := by decide
theorem test_wf_refuses_operand_on_format_Z : ¬ HostLine.WellFormed (.statement .NEXT (some 0)) := by decide
theorem test_wf_refuses_format_D_without_operand : ¬ HostLine.WellFormed (.statement .ABSORB none) := by decide
theorem test_wf_refuses_33_bit_operand : ¬ HostLine.WellFormed (.statement .ABSORB (some 0x100000000)) := by decide
theorem test_wf_refuses_illegal_8 : ¬ HostLine.WellFormed (.illegal 8) := by decide
theorem test_wf_refuses_illegal_16 : ¬ HostLine.WellFormed (.illegal 16) := by decide
theorem test_wf_refuses_status_8 : ¬ HostLine.WellFormed (.expect 8 0) := by decide
theorem test_wf_refuses_33_bit_data : ¬ HostLine.WellFormed (.expect 0 0x100000000) := by decide
theorem test_wf_accepts_the_edges : HostLine.WellFormed (.statement .ABSORB (some 0xFFFFFFFF)) ∧
    HostLine.WellFormed (.illegal 9) ∧ HostLine.WellFormed (.illegal 15) := by decide

/-! ## Request words written out from the spec's encodings -/

theorem test_decode_status : decode 0x000000000#36 = .status := by decide
theorem test_decode_status_ignores_data : decode 0x0FFFFFFFF#36 = .status := by decide
theorem test_decode_absorb : decode 0x188102204#36 = .absorb 0x88102204#32 := by decide
theorem test_decode_twist : decode 0x200000000#36 = .twist := by decide
theorem test_decode_untwist : decode 0x300000000#36 = .untwist := by decide
theorem test_decode_temper : decode 0x412345678#36 = .temper 0x12345678#32 := by decide
theorem test_decode_untemper : decode 0x52B7E4A2D#36 = .untemper 0x2B7E4A2D#32 := by decide
theorem test_decode_next : decode 0x600000000#36 = .next := by decide
theorem test_decode_prev : decode 0x700000000#36 = .prev := by decide
theorem test_decode_readState : decode 0x800000270#36 = .readState 624#32 := by decide
theorem test_decode_reserved9 : decode 0x900000000#36 = .reserved9 := by decide
theorem test_decode_reservedA : decode 0xA00000001#36 = .reservedA := by decide
theorem test_decode_reservedB : decode 0xB00000001#36 = .reservedB := by decide
theorem test_decode_reservedC : decode 0xC00000001#36 = .reservedC := by decide
theorem test_decode_reservedD : decode 0xD00000001#36 = .reservedD := by decide
theorem test_decode_reservedE : decode 0xE00000001#36 = .reservedE := by decide
theorem test_decode_reservedF : decode 0xFFFFFFFFF#36 = .reservedF := by decide
theorem test_encode_absorb : encode (.absorb 0x88102204#32) = 0x188102204#36 := by decide
theorem test_table_word_absorb : decodeTableWord 40 0x188102204 = some (.absorb 0x88102204#32) := by decide
theorem test_table_rows_do_not_overlap :
    opcodeTable.Pairwise (fun a b => a.mask = b.mask ∧ a.pattern ≠ b.pattern) := by decide
theorem test_response_word : Response.toWord ⟨.invalidArgument, 0⟩ = 0x300000000#35 := by decide

/-! ## The interface: the host's placed request is the one the next step runs -/

/-- Whether a step answers a next state. -/
def goesOn (o : Host.Outcome State Fault Refusal) : Bool :=
  match o with
  | .next _ => true
  | .fault _ => false
  | .refused _ => false

theorem test_step_runs_placed_twist : goesOn (step (State.reset.withFetchWord 40 0x200000000)) = true := by decide
theorem test_step_runs_placed_reserved : goesOn (step (State.reset.withFetchWord 40 0xF00000000)) = true := by decide

/-! ## Commands: the vectors of 95_test_vectors.md §2 -/

theorem test_status_cursor_and_ready : answer .status (filled false true 623) = some ⟨.ok, 0x0001026F#32⟩ := by decide
theorem test_status_verify_not_ready : answer .status (blank true false 5) = some ⟨.ok, 0x00020005#32⟩ := by decide

theorem test_absorb_fills : wordAfter (.absorb 1#32) (blank false false 0) 0 = some 0x102244C9#32 ∧
    cursorAfter (.absorb 0x88102204#32) (filled false false 623) = some (0, true) := by decide +kernel
theorem test_absorb_ready :
    answer (.absorb 0x12345678#32) (filled true true 0) = some ⟨.consistencyMismatch, 0xCC183306#32⟩ ∧
    wordAfter (.absorb 0#32) (filled false true 0) 1 = some 0xC0000000#32 := by decide +kernel

theorem test_twist_word0 : wordAfter .twist (filled false false 7) 0 = some 0xC0000000#32 := by decide +kernel
theorem test_twist_keeps_cursor : cursorAfter .twist (filled false false 7) = some (7, false) := by decide +kernel
theorem test_untwist_keeps_cursor : cursorAfter .untwist (filled false true 7) = some (7, true) := by decide +kernel

theorem test_temper : answer (.temper 0x12345678#32) (blank false false 0) = some ⟨.ok, 0x2B7E4A2D#32⟩ := by decide
theorem test_temper_masks : answer (.temper 0xDEADBEEF#32) (blank false false 0) = some ⟨.ok, 0xE016575D#32⟩ := by decide
theorem test_untemper : answer (.untemper 0x2B7E4A2D#32) (blank false false 0) = some ⟨.ok, 0x12345678#32⟩ := by decide
theorem test_untemper_ones : answer (.untemper 0xFFFFFFFF#32) (blank false false 0) = some ⟨.ok, 0x12DD9BB3#32⟩ := by decide

theorem test_next_at_zero_twists : answer .next (filled false true 0) = some ⟨.ok, 0xCC183306#32⟩ := by decide +kernel
theorem test_next_at_623 : answer .next (filled false true 623) = some ⟨.ok, 0x88102204#32⟩ ∧
    cursorAfter .next (filled false true 623) = some (0, true) := by decide +kernel
theorem test_prev_at_zero : answer .prev (filled false true 0) = some ⟨.ok, 0x88102204#32⟩ ∧
    cursorAfter .prev (filled false true 0) = some (623, true) := by decide +kernel
theorem test_prev_not_ready : answer .prev (blank false false 3) = some ⟨.notReady, 0⟩ ∧
    cursorAfter .prev (blank false false 3) = some (3, false) := by decide

theorem test_readState_5 : answer (.readState 5#32) (filled false true 0) = some ⟨.ok, 0x80000000#32⟩ := by decide +kernel
theorem test_readState_keeps_upper_bits :
    answer (.readState 0x80000005#32) (filled false true 0) = some ⟨.invalidArgument, 0⟩ := by decide +kernel

theorem test_reserved9 : answer .reserved9 (blank false false 0) = some ⟨.illegalCommand, 0⟩ := by decide
theorem test_reservedA : answer .reservedA (blank false false 0) = some ⟨.illegalCommand, 0⟩ := by decide
theorem test_reservedB : answer .reservedB (blank false false 0) = some ⟨.illegalCommand, 0⟩ := by decide
theorem test_reservedC : answer .reservedC (blank false false 0) = some ⟨.illegalCommand, 0⟩ := by decide
theorem test_reservedD : answer .reservedD (blank false false 0) = some ⟨.illegalCommand, 0⟩ := by decide
theorem test_reservedE : answer .reservedE (blank false false 0) = some ⟨.illegalCommand, 0⟩ := by decide
theorem test_reservedF : answer .reservedF (blank false false 0) = some ⟨.illegalCommand, 0⟩ := by decide

/-! ## The datapath: rows of the table of g and g_inv, and single steps of the passes -/

theorem test_g : g 0x80000001#32 = 0xD908B0DF#32 ∧ g 0xFFFFFFFF#32 = 0xE6F74F20#32 := by decide
theorem test_gInv : gInv 0x80000000#32 = 0x321161BF#32 ∧ gInv 0xFFFFFFFF#32 = 0xCDEE9E41#32 := by decide

/-- Two steps of 41_twist.md R111's example: step 623 restores word 623 to 0, and step 227, which takes its lower bits across the
wrap from that word, restores word 227. -/
theorem test_untwist_steps :
    readAt (untwistStep (Vector.replicate 624 0x80000000#32) 623) 623 = 0x00000000#32 ∧
    readAt (untwistStep (writeAt (Vector.replicate 624 0x80000000#32) 623 0) 227) 227 = 0x321161BF#32 := by decide +kernel

/-! ## The host's side -/

theorem test_absorbWords_splits : absorbWordsOperands 0x0000000200000001 64 = some [0x1#32, 0x2#32] := by decide
theorem test_absorbWords_refuses :
    absorbWordsOperands 5 0 = none ∧ absorbWordsOperands 5 48 = none ∧ absorbWordsOperands (2 ^ 64) 64 = none ∧
      absorbWordsOperands (-1) 32 = none := by decide
theorem test_readLine_absorb :
    readLine ['a', 'b', 's', 'o', 'r', 'b', ' ', '0', 'x', '8', 'F', ' ', ';', ' ', 'n', 'o'] =
      some (.statement .ABSORB (some 0x8F)) := by decide
theorem test_readLine_expect :
    readLine ['.', 'e', 'x', 'p', 'e', 'c', 't', ' ', '2', ',', ' ', '1', '0'] = some (.expect 2 10) := by decide
theorem test_assemble_illegal : assemble (.illegal 9) = some 0x900000000#36 := by decide
theorem test_expand : expandRepeats [.rept 2, .endr, .rept 2, .illegal 9, .endr] = some [.illegal 9, .illegal 9] := by decide

/-! ## Witnesses: for each statement that has hypotheses, a state and operands that meet them all, one for each clause -/

theorem valid_zeros : Valid (Vector.replicate 624 0) := by
  unfold Valid
  simp only [readAt_replicate]
  decide

theorem predicting_zeros (v : Bool) (c : Index) : Predicting (blank v true c) := ⟨rfl, valid_zeros⟩

theorem not_valid_one : ¬ Valid (writeAt (Vector.replicate 624 0) 0 1#32) := by
  unfold Valid
  simp only [readAt_writeAt, readAt_replicate]
  decide

theorem recurrence_zero : Recurrence (fun _ => 0) := by
  intro j
  show (0 : Word) = 0 ^^^ g (combine 0 0)
  decide

theorem window_zero (k : Int) : HoldsWindow (fun _ => 0) k (Vector.replicate 624 0) := by
  intro i
  exact readAt_replicate 0 i

/-- `rst` asserted over reset values, with one request waiting and one move of the host to come. -/
def inReset (v : Bool) (e : HostEvent) : State :=
  { State.resetWith v with rst := true, requests := [0x600000000#36], events := [e] }

theorem heldInReset_inReset (v : Bool) (e : HostEvent) : HeldInReset (inReset v e) :=
  fun _ => ⟨fun i => readAt_replicate 0 i, rfl, rfl, rfl⟩

theorem witness_ResetSetsAllStateAndAcceptsNoRequest :
    (∃ (s : State) (rest : List HostEvent), s.rst = false ∧ s.requests = [] ∧ s.events = .rst true :: rest) ∧
    (∀ e ∈ [HostEvent.rst false, .rst true, .strap false, .present 0x700000000#36, .presentAborted 0x700000000#36],
      (inReset true e).rst = true ∧ HeldInReset (inReset true e) ∧ (inReset true e).events = [e]) :=
  ⟨⟨{ filled false true 5 with events := [.rst true] }, [], rfl, rfl, rfl⟩,
   fun e _ => ⟨rfl, heldInReset_inReset true e, rfl⟩⟩

theorem witness_ResetDuringCommandAbandonsIt :
    ∃ (s : State) (w : Request) (rest : List HostEvent),
      s.rst = false ∧ s.requests = [] ∧ s.events = .presentAborted w :: rest :=
  ⟨{ filled false true 5 with events := [.presentAborted 0x600000000#36] }, 0x600000000#36, [], rfl, rfl, rfl⟩

theorem witness_EveryStepKeepsHeldInReset :
    ∃ s t : State, s.rst = true ∧ HeldInReset s ∧ step s = .next t :=
  ⟨{ State.resetWith true with rst := true }, { State.resetWith true with rst := true }, rfl,
    fun _ => ⟨fun i => readAt_replicate 0 i, rfl, rfl, rfl⟩, rfl⟩

theorem witness_ReadyIsSetOnceByAbsorbAndClearedByResetOnly :
    (∃ t, exec (.absorb 0) (blank false false 623) = .next t ∧ (blank false false 623).ready = false ∧
      (blank false false 623).cursor = 623 ∧ t.ready = true) ∧
    (∃ t, exec .twist (blank false true 0) = .next t ∧ (blank false true 0).ready = true) ∧
    (∃ t, step { blank false true 0 with events := [.rst true] } = .next t ∧ t.ready = false) ∧
    (blank false false 0).ready = false :=
  ⟨⟨absorbFill 0 (blank false false 623), rfl, rfl, rfl, by rw [absorbFill_spec]; decide⟩, ⟨_, rfl, rfl⟩, ⟨_, rfl, rfl⟩, rfl⟩

theorem witness_VerifyIsSampledAtResetOnly :
    (∃ (s : State) (rest : List HostEvent), s.rst = false ∧ s.requests = [] ∧ s.events = .rst true :: rest) ∧
    (∃ t, exec .status (blank true true 0) = .next t) ∧
    (∃ (s : State) (level : Bool) (rest : List HostEvent),
      s.rst = false ∧ s.requests = [] ∧ s.events = .strap level :: rest) ∧
    (∃ t, Instr.absorb 0 ≠ .status ∧ ((blank true false 0).ready = true → ∀ raw, Instr.absorb 0 ≠ .absorb raw) ∧
      exec (.absorb 0) (blank true false 0) = .next t) :=
  ⟨⟨{ blank false true 5 with events := [.rst true] }, [], rfl, rfl, rfl⟩, ⟨_, rfl⟩,
   ⟨{ blank false true 5 with events := [.strap true] }, true, [], rfl, rfl, rfl⟩,
   ⟨_, by decide, fun h => absurd h (by decide), rfl⟩⟩

theorem witness_ObservingCommandsChangeNoState : (Instr.readState 624).changesBlock = false := rfl

theorem witness_ReadsThatRepeatAndReadsThatDoNot :
    (blank true true 1).ready = true ∧ (blank true true 1).verify = true ∧
    (blank false true 0).ready = true ∧ (blank false true 0).verify = false := ⟨rfl, rfl, rfl, rfl⟩

theorem witness_CommandsReadOnlyTheStatedWords :
    ∃ ws : StateArray, ws ≠ (blank true true 5).words ∧
      ∀ j : Index, readsWord .next (blank true true 5) j → readAt ws j = readAt (blank true true 5).words j := by
  refine ⟨writeAt (Vector.replicate 624 0) 0 1#32, fun e => not_valid_one (by rw [e]; exact valid_zeros), ?_⟩
  rintro j ⟨-, h | h⟩
  · exact absurd h (by decide)
  · rw [h]; exact readAt_writeAt_ne _ _ (by decide)

theorem witness_AbsorbFollowsItsThreePaths :
    ((blank true false 623).ready = false) ∧ ((blank true true 0).ready = true ∧ (blank true true 0).verify = true) ∧
    ((blank false true 0).ready = true ∧ (blank false true 0).verify = false) := ⟨rfl, ⟨rfl, rfl⟩, ⟨rfl, rfl⟩⟩

theorem witness_SixHundredTwentyFourAbsorbsFillTheArray : (0 : Nat) < 624 ∧ (623 : Nat) < 624 := by decide

theorem witness_BeforeReadinessTheCursorCountsAbsorbs :
    absorbCount [.absorb 1, .next, .absorb 2] < 624 ∧ absorbCount (List.replicate 623 (.absorb 1)) < 624 ∧
      624 ≤ absorbCount (List.replicate 624 (.absorb 1)) :=
  ⟨by decide, by decide +kernel, by decide +kernel⟩

theorem witness_EveryCommandKeepsTheAbsorbCount :
    AfterAbsorbs 0 (blank true false 0) ∧ AfterAbsorbs 623 (blank true false 623) ∧ AfterAbsorbs 624 (blank true true 5) :=
  ⟨⟨fun _ => ⟨rfl, rfl⟩, fun h => absurd h (by decide)⟩, ⟨fun _ => ⟨rfl, rfl⟩, fun h => absurd h (by decide)⟩,
   ⟨fun h => absurd h (by decide), fun _ => rfl⟩⟩

theorem witness_VerifyingAbsorbIsNextButForItsStatus :
    (blank true true 0).ready = true ∧ (blank true true 0).verify = true := ⟨rfl, rfl⟩

theorem witness_StoringTheTrueContinuationIsNext :
    (blank false true 0).ready = true ∧ (blank true true 623).ready = true := ⟨rfl, rfl⟩

theorem witness_AbsorbWordsChecksAndSplitsLowWordFirst :
    ((0 : Int) ≤ 0) ∧ ((48 : Int) % 32 ≠ 0) ∧ ((-1 : Int) < 0) ∧ ((2 : Int) ^ (64 : Int).toNat ≤ 2 ^ 64) ∧
    ((0 : Nat) < 2 ∧ 2 ^ 64 - 1 < 2 ^ (32 * 2)) := by decide

theorem witness_TwistReadsTheStatedValues :
    HoldsWindow (fun _ => 0) 5 (Vector.replicate 624 0) ∧ (0x80000000#32 &&& Config.UPPER = 0xFFFFFFFF#32 &&& Config.UPPER) :=
  ⟨window_zero 5, by decide⟩

theorem witness_UntwistAfterTwistRestoresExactlyValidArrays : ∃ S : StateArray, ¬ Valid S := ⟨_, not_valid_one⟩

theorem witness_TwistAfterUntwistRestoresExactlyValidArrays : ∃ S : StateArray, ¬ Valid S := ⟨_, not_valid_one⟩

theorem witness_TwistIsNotInjective :
    ∃ S S' : StateArray, S' ≠ S ∧ (∀ i : Index, i ≠ 0 → readAt S' i = readAt S i) ∧
      readAt S' 0 &&& Config.UPPER = readAt S 0 &&& Config.UPPER :=
  ⟨Vector.replicate 624 0, writeAt (Vector.replicate 624 0) 0 1#32,
    fun e => not_valid_one (by rw [e]; exact valid_zeros),
    fun _ h => readAt_writeAt_ne _ _ h, by simp only [readAt_writeAt_same, readAt_replicate]; decide⟩

theorem witness_WindowsOfOneGeneratorAreValidAndTwistMovesThem :
    Recurrence (fun _ => 0) ∧ HoldsWindow (fun _ => 0) 0 (Vector.replicate 624 0) ∧
    (∀ i ∈ [Instr.next, .prev, .absorb 7], i = .next ∨ i = .prev ∨ (true = true ∧ ∃ raw, i = .absorb raw)) :=
  ⟨recurrence_zero, window_zero 0, by simp⟩

theorem witness_TwistAndUntwistCommandsDriveTheDatapath : ∀ i : Index, readAt (blank false false 3).words i = 0 :=
  fun i => readAt_replicate 0 i

theorem witness_NextAndPrevFollowTheCrossingTable :
    ∀ c ∈ [(0 : Index), 1, 2, 622, 623], (blank false true c).ready = true ∧ (blank false true c).cursor = c := by
  intro c _; exact ⟨rfl, rfl⟩

theorem witness_NotReadyIsNextAndPrevBeforeReadiness :
    ∃ t, (blank false false 0).ready = false ∧ exec .prev (blank false false 0) = .next t ∧
      Answers (blank false false 0) t ⟨.notReady, 0⟩ := ⟨_, rfl, rfl, respond_answers _ _ _⟩

theorem witness_NextThenPrevIsTheIdentity : Predicting (blank false true 0) ∧ Predicting (blank true true 623) :=
  ⟨predicting_zeros _ _, predicting_zeros _ _⟩

theorem witness_PrevThenNextIsTheIdentity : Predicting (blank false true 1) ∧ Predicting (blank true true 0) :=
  ⟨predicting_zeros _ _, predicting_zeros _ _⟩

theorem witness_ValidityIsKeptUnlessAbsorbStoresAnotherWord :
    Valid (blank false true 5).words ∧ (∀ raw, Instr.absorb 0 = .absorb raw → (blank false true 5).ready = true ∧
      ((blank false true 5).verify = true ∨
        untemper raw = readAt (generationRead (blank false true 5)) (blank false true 5).cursor)) := by
  refine ⟨valid_zeros, fun raw h => ⟨rfl, .inr ?_⟩⟩
  injection h with h
  subst h
  have hw : generationRead (blank false true 5) = Vector.replicate 624 0 := rfl
  rw [hw, readAt_replicate]
  decide

theorem witness_AValidArrayHasOneTwoWaySequence : ∃ S : StateArray, Valid S := ⟨_, valid_zeros⟩

theorem witness_EveryMoveFollowsTheSequence :
    Recurrence (fun _ => 0) ∧ (blank true true 0).cursor = 0 ∧ HoldsWindow (fun _ => 0) 0 (blank true true 0).words ∧
    (∃ (p : Int) (s : State), s.ready = true ∧ AtPosition (fun _ => 0) p s ∧ s.verify = true) ∧
    (∃ (p : Int) (s : State), s.ready = true ∧ AtPosition (fun _ => 0) p s ∧ s.verify = false ∧
      (0 : Word) = temper ((fun _ => 0) p)) :=
  ⟨recurrence_zero, rfl, window_zero 0,
   ⟨625, blank true true 1, rfl, ⟨by decide, fun i => readAt_replicate 0 i⟩, rfl⟩,
   ⟨-1, blank false true 623, rfl, ⟨by decide, fun i => readAt_replicate 0 i⟩, rfl, by decide⟩⟩

theorem witness_OffValidNextThenPrevLosesWordZero :
    ∃ s : State, s.ready = true ∧ s.cursor = 0 ∧ ¬ Valid s.words :=
  ⟨{ blank false true 0 with words := writeAt (Vector.replicate 624 0) 0 1#32 }, rfl, rfl, not_valid_one⟩

theorem witness_OffValidPrevThenNextLosesLastWord :
    ∃ s : State, s.ready = true ∧ s.cursor = 1 ∧ ¬ Valid s.words :=
  ⟨{ blank false true 1 with words := writeAt (Vector.replicate 624 0) 0 1#32 }, rfl, rfl, not_valid_one⟩

theorem witness_BackwardWordsAreTheForwardWordsReversed : Predicting (blank false true 600) := predicting_zeros _ _

theorem witness_TheAllZeroArrayYieldsZeroForEver :
    (blank false true 622).ready = true ∧ ∀ i : Index, readAt (blank false true 622).words i = 0 :=
  ⟨rfl, fun i => readAt_replicate 0 i⟩

theorem witness_ReadStateReadsTheStoredWord : (623#32).toNat < 624 ∧ 624 ≤ (624#32).toNat := by decide

theorem witness_ReservedOpcodesAnswerIllegalCommand :
    9 ≤ ((0x900000001#36 : Request).extractLsb' 32 4).toNat ∧
    ∃ t, exec .reservedF (blank false false 0) = .next t ∧ Answers (blank false false 0) t ⟨.illegalCommand, 0⟩ :=
  ⟨by decide, _, rfl, respond_answers _ _ _⟩

theorem witness_ErrorsArePrecise :
    (∃ t, exec .next (blank false false 0) = .next t ∧ Answers (blank false false 0) t ⟨.notReady, 0⟩ ∧
      Status.notReady ≠ .ok ∧ Status.notReady ≠ .consistencyMismatch) ∧
    (∃ t, exec (.absorb 1) (blank true true 5) = .next t ∧ Answers (blank true true 5) t ⟨.consistencyMismatch, 0⟩) := by
  refine ⟨⟨_, rfl, respond_answers _ _ _, by decide, by decide⟩, absorbVerify 1 (blank true true 5), rfl, ?_⟩
  have hw : generationRead (blank true true 5) = Vector.replicate 624 0 := rfl
  rw [absorbVerify_spec, hw, readAt_replicate]
  exact ⟨by decide +kernel, rfl, rfl, rfl, rfl⟩

theorem witness_ResponsesDependOnTheBlockAlone :
    SameBlock (blank true true 5)
      { blank true true 5 with cfgVerify := false, rst := true, events := [.rst false], responses := [⟨.ok, 1⟩] } :=
  ⟨rfl, rfl, rfl, rfl⟩

theorem witness_AStepRunsTheDecodedRequest :
    (∃ (s : State) (w : Request) (rest : List Request), s.rst = false ∧ s.requests = w :: rest) ∧
    (decodeTableWord 40 0x600000000 = some .next) ∧
    (∃ (s : State) (w : Request) (rest : List HostEvent),
      s.rst = false ∧ s.requests = [] ∧ s.events = .present w :: rest) ∧
    ((inReset true (.present 0x700000000#36)).rst = true ∧
      (inReset true (.present 0x700000000#36)).events = [.present 0x700000000#36] ∧
      (inReset true (.presentAborted 0x700000000#36)).events = [.presentAborted 0x700000000#36]) ∧
    (∃ s : State, s.requests = [] ∧ s.events = []) ∧
    (∃ s : State, s.rst = true ∧ s.requests ≠ [] ∧ s.events = []) :=
  ⟨⟨{ State.reset with requests := [0x600000000#36] }, _, _, rfl, rfl⟩, by decide,
   ⟨{ State.reset with events := [.present 0x700000000#36] }, _, _, rfl, rfl, rfl⟩, ⟨rfl, rfl, rfl⟩, ⟨State.reset, rfl, rfl⟩,
   ⟨{ State.reset with rst := true, requests := [0x600000000#36] }, rfl, by simp, rfl⟩⟩

theorem witness_EveryRequestSelectsOneRowByItsOpcode :
    (∃ r ∈ opcodeTable, r.selects 0x188102204#36 = true) ∧
    (0x188102204#36 : Request).extractLsb' 32 4 = (0x100000000#36 : Request).extractLsb' 32 4 := by decide

theorem witness_OnlyFormatDReadsTheDataField :
    (decode 0x188102204#36).format = .D ∧ (decode 0x2FFFFFFFF#36).format = .Z := by decide

theorem witness_ResponseWordsCarryStatusAndData :
    Response.ofWord 0x2CC183306#35 = some ⟨.consistencyMismatch, 0xCC183306#32⟩ ∧ Response.ofWord 0x500000000#35 = none := by
  decide

theorem witness_AssembledLinesDecodeToTheirCommand :
    Mnemonic.NEXT.format = .Z ∧ Mnemonic.ABSORB.format = .D ∧ (0xFFFFFFFF < 2 ^ 32) ∧ (9 ≤ 9 ∧ 15 ≤ 15) ∧
    (HostLine.illegal 8).wellFormed = false := by decide

theorem witness_HostDirectivesRepeatAndReset :
    ∀ l ∈ [HostLine.illegal 9, .blank], l ≠ .endr ∧ ∀ k, l ≠ .rept k := by simp

end Sys2Proof.Tests
end

/-! # What a command does, field by field

`exec` as one record update: the words, the cursor and `ready` a command leaves and the response it gives, each a function of
the command and the state (10_state.md R21 to R24; 60_exceptions.md R180). A fact about one field is then a fact about one of
these functions. -/

namespace Sys2Proof.Machine

/-- The array after a command. -/
def nextWords (i : Instr) (s : State) : StateArray :=
  match i with
  | .absorb raw =>
    if s.ready then
      if s.verify then generationRead s else writeAt (generationRead s) s.cursor (untemper raw)
    else writeAt s.words s.cursor (untemper raw)
  | .twist => twist s.words
  | .untwist => untwist s.words
  | .next => if s.ready then generationRead s else s.words
  | .prev => if s.ready && decide (wrapPred s.cursor = 0) then untwist s.words else s.words
  | .status | .temper _ | .untemper _ | .readState _ | .reserved9 | .reservedA | .reservedB | .reservedC | .reservedD
  | .reservedE | .reservedF => s.words

/-- The cursor after a command (10_state.md R22). -/
def nextCursor (i : Instr) (s : State) : Index :=
  match i with
  | .absorb _ => wrapAdd s.cursor 1
  | .next => if s.ready then wrapAdd s.cursor 1 else s.cursor
  | .prev => if s.ready then wrapPred s.cursor else s.cursor
  | .status | .twist | .untwist | .temper _ | .untemper _ | .readState _ | .reserved9 | .reservedA | .reservedB
  | .reservedC | .reservedD | .reservedE | .reservedF => s.cursor

/-- `ready` after a command (10_state.md R23). -/
def nextReady (i : Instr) (s : State) : Bool :=
  match i with
  | .absorb _ => decide (wrapAdd s.cursor 1 = 0) || s.ready
  | .status | .twist | .untwist | .temper _ | .untemper _ | .next | .prev | .readState _ | .reserved9 | .reservedA
  | .reservedB | .reservedC | .reservedD | .reservedE | .reservedF => s.ready

/-- The response to a command. -/
def responseTo (i : Instr) (s : State) : Response :=
  match i with
  | .status => ⟨.ok, statusWord s⟩
  | .absorb raw =>
    if s.ready && s.verify then ⟨if predictedWord s = raw then .ok else .consistencyMismatch, predictedWord s⟩ else ⟨.ok, 0⟩
  | .twist => ⟨.ok, 0⟩
  | .untwist => ⟨.ok, 0⟩
  | .temper y => ⟨.ok, temper y⟩
  | .untemper y => ⟨.ok, untemper y⟩
  | .next => if s.ready then ⟨.ok, predictedWord s⟩ else ⟨.notReady, 0⟩
  | .prev => if s.ready then ⟨.ok, temper (readAt s.words (wrapPred s.cursor))⟩ else ⟨.notReady, 0⟩
  | .readState index =>
    match stateIndex index with
    | some k => ⟨.ok, readAt s.words k⟩
    | none => ⟨.invalidArgument, 0⟩
  | .reserved9 | .reservedA | .reservedB | .reservedC | .reservedD | .reservedE | .reservedF => ⟨.illegalCommand, 0⟩

/-- The state after a command: `verify` and the ports, the responses apart, are those before it. -/
def afterCommand (i : Instr) (s : State) : State :=
  { s with
    words := nextWords i s
    cursor := nextCursor i s
    ready := nextReady i s
    responses := s.responses ++ [responseTo i s] }

section
variable (i : Instr) (s : State)

@[simp] theorem afterCommand_words : (afterCommand i s).words = nextWords i s := rfl
@[simp] theorem afterCommand_cursor : (afterCommand i s).cursor = nextCursor i s := rfl
@[simp] theorem afterCommand_ready : (afterCommand i s).ready = nextReady i s := rfl
@[simp] theorem afterCommand_verify : (afterCommand i s).verify = s.verify := rfl
@[simp] theorem afterCommand_cfgVerify : (afterCommand i s).cfgVerify = s.cfgVerify := rfl

theorem afterCommand_ports : SamePorts s (afterCommand i s) := ⟨rfl, rfl, rfl, rfl⟩

theorem afterCommand_answers : Answers s (afterCommand i s) (responseTo i s) := ⟨rfl, afterCommand_ports i s⟩

end

theorem predictedWord_eq (s : State) : predictedWord s = temper (readAt (generationRead s) s.cursor) :=
  congrArg Prod.fst (predictStep_spec s)

/-- ABSORB on each of its paths (40_ingestion.md R80) is `afterCommand`. -/
theorem execAbsorb_eq_afterCommand (raw : Word) (s : State) :
    execAbsorb raw s = .next (afterCommand (.absorb raw) s) := by
  cases hr : s.ready with
  | false =>
    rw [execAbsorb_fill s raw hr, absorbFill_spec]
    simp [afterCommand, nextWords, nextCursor, nextReady, responseTo, hr]
  | true =>
    cases hv : s.verify with
    | false =>
      rw [execAbsorb_store s raw hr hv, absorbStore_spec]
      simp [afterCommand, nextWords, nextCursor, nextReady, responseTo, hr, hv]
    | true =>
      rw [execAbsorb_verify s raw hr hv, absorbVerify_spec, ← predictedWord_eq]
      simp [afterCommand, nextWords, nextCursor, nextReady, responseTo, hr, hv]

theorem execNext_eq_afterCommand (s : State) : execNext s = .next (afterCommand .next s) := by
  cases hr : s.ready with
  | false =>
    rw [execNext_notReady s hr]
    simp [State.respond, afterCommand, nextWords, nextCursor, nextReady, responseTo, hr]
  | true =>
    rw [execNext_ready s hr]
    simp [afterCommand, nextWords, nextCursor, nextReady, responseTo, predictedWord_eq, hr]

/-- PREV (43_word_engine.md R143): NOT_READY before readiness, after it the retreat, the word and the untwist at 0. -/
theorem exec_prev_eq_ite (s : State) :
    exec .prev s =
      if s.ready = false then .next (s.raise .notReady 0)
      else .next (s.retreatCursor.untwistAtZero.respond .ok s.retreatCursor.outputWord) := rfl

theorem exec_prev_eq_afterCommand (s : State) : exec .prev s = .next (afterCommand .prev s) := by
  rw [exec_prev_eq_ite]
  cases hr : s.ready with
  | false => simp [State.raise, State.respond, afterCommand, nextWords, nextCursor, nextReady, responseTo, hr]
  | true =>
    by_cases hc : wrapPred s.cursor = 0
    · simp [State.respond, State.untwistAtZero, State.outputWord, State.retreatCursor, State.mapArray, afterCommand,
        nextWords, nextCursor, nextReady, responseTo, hr, hc]
    · simp [State.respond, State.untwistAtZero, State.outputWord, State.retreatCursor, afterCommand,
        nextWords, nextCursor, nextReady, responseTo, hr, hc]

theorem execReadState_eq_afterCommand (index : Word) (s : State) :
    execReadState index s = .next (afterCommand (.readState index) s) := by
  unfold execReadState afterCommand responseTo
  dsimp only
  cases stateIndex index <;> rfl

/-- Every command, in every state, answers the next state `afterCommand` (60_exceptions.md R180). -/
theorem exec_eq (i : Instr) (s : State) : exec i s = .next (afterCommand i s) := by
  cases i with
  | absorb raw => exact execAbsorb_eq_afterCommand raw s
  | twist => exact execTwist_spec s
  | untwist => exact execUntwist_spec s
  | next => exact execNext_eq_afterCommand s
  | prev => exact exec_prev_eq_afterCommand s
  | readState index => exact execReadState_eq_afterCommand index s
  | _ => rfl

/-- The inversion of `exec_eq`. -/
theorem eq_afterCommand {i : Instr} {s t : State} (h : exec i s = .next t) : t = afterCommand i s := by
  rw [exec_eq] at h
  injection h with h
  exact h.symm

/-! ## Cursor and `ready` count the ABSORBs (10_state.md R22, R23, R28) -/

theorem wrapAdd_one_eq_zero_iff (c : Index) : wrapAdd c 1 = 0 ↔ c.val + 1 = 624 := by
  have hc := c.isLt
  rw [Fin.ext_iff, wrapAdd_val, Fin.val_zero]
  omega

theorem wrapPred_eq_zero_iff (c : Index) : wrapPred c = 0 ↔ c = 1 := by
  have hc := c.isLt
  rw [Fin.ext_iff, Fin.ext_iff, wrapPred_val, Fin.val_zero, Fin.val_one]
  omega

/-- One command is one ABSORB or none. -/
theorem absorbCount_singleton (i : Instr) : (∃ raw, i = .absorb raw) ∧ absorbCount [i] = 1 ∨ absorbCount [i] = 0 := by
  cases i with
  | absorb raw => exact .inl ⟨⟨raw, rfl⟩, rfl⟩
  | _ => exact .inr rfl

theorem absorbCount_cons (i : Instr) (is : List Instr) : absorbCount (i :: is) = absorbCount [i] + absorbCount is := by
  cases i with
  | absorb raw => exact Nat.add_comm _ _
  | _ => exact (Nat.zero_add _).symm

/-- `ready` is kept, and set exactly by the ABSORB that moves the cursor off its last value. -/
theorem nextReady_eq (i : Instr) (s : State) :
    nextReady i s = (s.ready || decide (s.cursor.val + absorbCount [i] = 624)) := by
  have hc := s.cursor.isLt
  cases i with
  | absorb raw => simp [nextReady, wrapAdd_one_eq_zero_iff, absorbCount, Bool.or_comm]
  | _ => simp [nextReady, absorbCount, hc.ne]

/-- Before readiness only ABSORB moves the cursor. -/
theorem nextCursor_val_of_notReady {s : State} (h : s.ready = false) (i : Instr) :
    (nextCursor i s).val = (s.cursor.val + absorbCount [i]) % 624 := by
  have hc := s.cursor.isLt
  cases i with
  | absorb raw => rfl
  | _ => simp [nextCursor, absorbCount, h, Nat.mod_eq_of_lt hc]

/-- A command adds itself to the count of ABSORBs if it is one. -/
theorem afterCommand_afterAbsorbs {n : Nat} {s : State} (h : AfterAbsorbs n s) (i : Instr) :
    AfterAbsorbs (n + absorbCount [i]) (afterCommand i s) := by
  obtain ⟨filling, filled⟩ := h
  constructor
  · intro hn
    obtain ⟨hr, hc⟩ := filling (by omega)
    rw [afterCommand_ready, afterCommand_cursor, nextReady_eq, nextCursor_val_of_notReady hr, hr, hc]
    exact ⟨by simp [hn.ne], Nat.mod_eq_of_lt hn⟩
  · intro hn
    rw [afterCommand_ready, nextReady_eq]
    rcases Nat.lt_or_ge n 624 with hlt | hge
    · obtain ⟨-, hc⟩ := filling hlt
      have hone := absorbCount_singleton i
      have hwrap : n + absorbCount [i] = 624 := by omega
      simp [hc, hwrap]
    · simp [filled hge]

/-- Settles O57: `ready` and the cursor after a command as functions of those before it and of whether it is an ABSORB. -/
theorem everyCommandKeepsTheAbsorbCount : Obligations.EveryCommandKeepsTheAbsorbCount := by
  intro n i s h
  exact ⟨afterCommand i s, exec_eq i s, afterCommand_afterAbsorbs h i⟩

/-! ## Runs of commands -/

theorem runCommands_cons (i : Instr) (is : List Instr) (s : State) :
    runCommands (i :: is) s = runCommands is (afterCommand i s) := by
  rw [runCommands, exec_eq]

theorem runCommands_afterAbsorbs (is : List Instr) {n : Nat} {s : State} (h : AfterAbsorbs n s) :
    ∃ t, runCommands is s = .next t ∧ AfterAbsorbs (n + absorbCount is) t := by
  induction is generalizing n s with
  | nil => exact ⟨s, rfl, h⟩
  | cons i is ih =>
    rw [runCommands_cons, absorbCount_cons, ← Nat.add_assoc]
    exact ih (afterCommand_afterAbsorbs h i)

theorem resetWith_afterAbsorbs (v : Bool) : AfterAbsorbs 0 (State.resetWith v) :=
  ⟨fun _ => ⟨rfl, rfl⟩, fun h => absurd h (by decide)⟩

/-- Settles O15, by induction on the list of commands with the number of ABSORBs before it general. -/
theorem beforeReadinessTheCursorCountsAbsorbs : Obligations.BeforeReadinessTheCursorCountsAbsorbs := by
  intro v is
  obtain ⟨t, ht, hcount⟩ := runCommands_afterAbsorbs is (resetWith_afterAbsorbs v)
  rw [Nat.zero_add] at hcount
  exact ⟨t, ht, hcount.filling, hcount.filled⟩

/-! ## `ready` (10_state.md R23) -/

/-- A command that makes the machine ready is the ABSORB that moves the cursor from 623 to 0. -/
theorem absorb_wraps_of_nextReady {i : Instr} {s : State} (hr : s.ready = false) (h : nextReady i s = true) :
    (∃ raw, i = .absorb raw) ∧ s.cursor = 623 ∧ nextCursor i s = 0 := by
  have hwrap : s.cursor.val + absorbCount [i] = 624 := by simpa [nextReady_eq, hr] using h
  have hlt := s.cursor.isLt
  obtain ⟨habsorb, hone⟩ | hnone := absorbCount_singleton i
  · have hlast : s.cursor.val = 623 := by omega
    refine ⟨habsorb, Fin.ext hlast, Fin.ext ?_⟩
    rw [nextCursor_val_of_notReady hr, hwrap, Fin.val_zero]
  · omega

theorem nextReady_of_ready {s : State} (h : s.ready = true) (i : Instr) : nextReady i s = true := by
  simp [nextReady_eq, h]

/-- A move of the host clears `ready` only by a reset in force. -/
theorem rst_of_hostMove_clears_ready {e : HostEvent} {s : State} (h : s.ready = true) (h' : (hostMove e s).ready = false) :
    s.rst = true ∨ (hostMove e s).rst = true := by
  cases e with
  | present w => exact absurd h' (by simp [hostMove, h])
  | presentAborted w =>
    cases hrst : s.rst with
    | false => exact .inr (by simp [hostMove, hrst])
    | true => exact .inl rfl
  | strap level => exact .inl (by simpa [hostMove, h] using h')
  | rst level =>
    cases level with
    | false => exact .inl (by simpa [hostMove, h] using h')
    | true => exact .inr rfl

/-- A step clears `ready` only by a reset in force before or after it. -/
theorem rst_of_step_clears_ready {s t : State} (hst : step s = .next t) (h : s.ready = true) (h' : t.ready = false) :
    s.rst = true ∨ t.rst = true := by
  obtain ⟨w, rest, -, -, hexec⟩ | ⟨-, rfl⟩ := step_cases hst
  · have hkeep := nextReady_of_ready (s := { s with requests := rest }) h (decode w)
    rw [eq_afterCommand hexec, afterCommand_ready, hkeep] at h'
    contradiction
  · obtain ⟨-, hidle⟩ | ⟨e, rest, -, hidle⟩ := idle_cases s <;> rw [hidle] at h' ⊢
    · exact absurd h' (by simp [h])
    · exact rst_of_hostMove_clears_ready (s := { s with events := rest }) h h'

/-- Settles O6: `nextReady_eq` says what a command does to `ready`, `step_cases` what a step can do beside a command. -/
theorem readyIsSetOnceByAbsorbAndClearedByResetOnly : Obligations.ReadyIsSetOnceByAbsorbAndClearedByResetOnly := by
  refine ⟨fun v => rfl, ?sets, ?wraps, ?keeps, fun s t => rst_of_step_clears_ready, ?notReady⟩
  case sets =>
    intro i s t h hr ht
    obtain rfl := eq_afterCommand h
    exact absorb_wraps_of_nextReady hr ht
  case wraps =>
    intro raw s hr hc
    exact ⟨_, exec_eq _ s, by simp [nextReady_eq, absorbCount, hc]⟩
  case keeps =>
    intro i s t h hr
    obtain rfl := eq_afterCommand h
    exact nextReady_of_ready hr i
  case notReady =>
    intro s hr i hi
    have hresponse : responseTo i s = ⟨.notReady, 0⟩ := by
      obtain rfl | rfl : i = .next ∨ i = .prev := by simpa using hi
      · simp [responseTo, hr]
      · simp [responseTo, hr]
    exact ⟨_, 0, exec_eq i s, hresponse ▸ afterCommand_answers i s⟩

/-! ## `verify` (10_state.md R24) -/

/-- Where no request is accepted the step is the host's next move. -/
theorem step_eq_hostMove {s : State} {e : HostEvent} {rest : List HostEvent} (hq : s.rst = true ∨ s.requests = [])
    (he : s.events = e :: rest) : step s = .next (hostMove e { s with events := rest }) := by
  unfold step
  rw [(acceptRequest_eq_none_iff s).2 hq]
  simp only [idle, he]

/-- Only STATUS and ABSORB after readiness read `verify`. -/
theorem afterCommand_with_verify {i : Instr} {s : State} (hstatus : i ≠ .status)
    (habsorb : s.ready = true → ∀ raw, i ≠ .absorb raw) (b : Bool) :
    afterCommand i { s with verify := b } = { afterCommand i s with verify := b } := by
  cases i with
  | status => contradiction
  | absorb raw =>
    have hr : s.ready = false := Bool.eq_false_iff.2 fun h => habsorb h raw rfl
    simp [afterCommand, nextWords, nextCursor, nextReady, responseTo, hr]
  | next => simp only [afterCommand, nextWords, nextCursor, nextReady, responseTo, predictedWord_eq, generationRead]
  | _ => rfl

/-- Settles O7: `afterCommand` leaves `verify` alone, and reads it for STATUS and after readiness for ABSORB only. -/
theorem verifyIsSampledAtResetOnly : Obligations.VerifyIsSampledAtResetOnly := by
  refine ⟨?sampled, ?kept, ?strap, ?unread⟩
  case sampled =>
    intro s rest _ hq he
    exact ⟨_, step_eq_hostMove (.inr hq) he, rfl⟩
  case kept =>
    intro i s t h
    obtain rfl := eq_afterCommand h
    exact ⟨rfl, rfl⟩
  case strap =>
    intro s level rest hrst hq he
    rw [step_eq_hostMove (.inr hq) he]
    simp [hostMove, State.setStrap, hrst]
  case unread =>
    intro i s t b hstatus habsorb h
    obtain rfl := eq_afterCommand h
    rw [exec_eq, afterCommand_with_verify hstatus habsorb]

/-! ## The cursor (10_state.md R22) -/

/-- Settles O8, command by command. -/
theorem cursorMovesByOneAndOnlyByAbsorbNextPrev : Obligations.CursorMovesByOneAndOnlyByAbsorbNextPrev := by
  intro i s
  refine ⟨afterCommand i s, exec_eq i s, ?_⟩
  cases i with
  | absorb raw => exact wrapAdd_val s.cursor 1
  | next => simp [nextCursor, apply_ite Fin.val]
  | prev => simp [nextCursor, apply_ite Fin.val]
  | _ => simp only [afterCommand_cursor, nextCursor]

/-! ## The reads (10_state.md R21) -/

/-- A command reads the whole array, or writes no word, or writes one word whatever the array is. -/
theorem nextWords_cases (i : Instr) (s : State) :
    (∀ j, readsWord i s j) ∨
    (∀ ws, nextWords i { s with words := ws } = ws) ∨
    (∃ k v, ∀ ws, nextWords i { s with words := ws } = writeAt ws k v) := by
  cases i with
  | absorb raw =>
    cases hr : s.ready with
    | false => exact .inr (.inr ⟨s.cursor, untemper raw, fun ws => by simp [nextWords]⟩)
    | true =>
      by_cases hc : s.cursor = 0
      · exact .inl fun j => ⟨hr, .inl hc⟩
      · cases hv : s.verify with
        | false => exact .inr (.inr ⟨s.cursor, untemper raw, fun ws => by simp [nextWords, generationRead, hc]⟩)
        | true => exact .inr (.inl fun ws => by simp [nextWords, generationRead, hc])
  | twist => exact .inl fun _ => trivial
  | untwist => exact .inl fun _ => trivial
  | next =>
    by_cases h : s.ready = true ∧ s.cursor = 0
    · obtain ⟨hr, hc⟩ := h
      exact .inl fun j => ⟨hr, .inl hc⟩
    · refine .inr (.inl fun ws => ?_)
      simp only [nextWords, generationRead, ← ite_and, h, if_false]
  | prev =>
    by_cases h : s.ready = true ∧ s.cursor = 1
    · obtain ⟨hr, hc⟩ := h
      exact .inl fun j => ⟨hr, .inl hc⟩
    · exact .inr (.inl fun ws => by simp [nextWords, wrapPred_eq_zero_iff, h])
  | _ => exact .inr (.inl fun _ => rfl)

section
variable {i : Instr} {s : State} {ws : StateArray}

/-- A forward step reads the word at the cursor, and the whole array where the cursor is 0. -/
theorem predictedWord_with_words (hzero : s.cursor = 0 → ∀ j, readAt ws j = readAt s.words j)
    (hcursor : readAt ws s.cursor = readAt s.words s.cursor) :
    predictedWord { s with words := ws } = predictedWord s := by
  by_cases hc : s.cursor = 0
  · rw [stateArray_ext (hzero hc)]
  · simp [predictedWord_eq, generationRead, hc, hcursor]

/-- The response depends on the words read only. -/
theorem responseTo_with_words (h : ∀ j, readsWord i s j → readAt ws j = readAt s.words j) :
    responseTo i { s with words := ws } = responseTo i s := by
  cases i with
  | absorb raw =>
    by_cases hrv : s.ready = true ∧ s.verify = true
    · obtain ⟨hr, hv⟩ := hrv
      have hword := predictedWord_with_words (fun hc j => h j ⟨hr, .inl hc⟩) (h s.cursor ⟨hr, .inr ⟨hv, rfl⟩⟩)
      simp only [responseTo, hword]
    · simp [responseTo, hrv]
  | next =>
    by_cases hr : s.ready = true
    · have hword := predictedWord_with_words (fun hc j => h j ⟨hr, .inl hc⟩) (h s.cursor ⟨hr, .inr rfl⟩)
      simp only [responseTo, hword]
    · simp [responseTo, hr]
  | prev =>
    by_cases hr : s.ready = true
    · simp only [responseTo, h (wrapPred s.cursor) ⟨hr, .inr rfl⟩]
    · simp [responseTo, hr]
  | readState index =>
    by_cases hlt : index.toNat < 624
    · simp [responseTo, stateIndex, hlt, h ⟨index.toNat, hlt⟩ rfl]
    · simp [responseTo, stateIndex, hlt]
  | _ => rfl

/-- A word after a command is the same from both arrays, or was neither read nor changed. -/
theorem readAt_nextWords_with_words (h : ∀ j, readsWord i s j → readAt ws j = readAt s.words j) (j : Index) :
    readAt (nextWords i { s with words := ws }) j = readAt (nextWords i s) j ∨
    (¬ readsWord i s j ∧ readAt (nextWords i s) j = readAt s.words j ∧
      readAt (nextWords i { s with words := ws }) j = readAt ws j) := by
  obtain hall | hkeep | ⟨k, v, hwrite⟩ := nextWords_cases i s
  · rw [stateArray_ext fun j => h j (hall j)]
    exact .inl rfl
  · rw [hkeep ws, show nextWords i s = s.words from hkeep s.words]
    by_cases hj : readsWord i s j
    · exact .inl (h j hj)
    · exact .inr ⟨hj, rfl, rfl⟩
  · rw [hwrite ws, show nextWords i s = writeAt s.words k v from hwrite s.words, readAt_writeAt, readAt_writeAt]
    by_cases hj : readsWord i s j
    · exact .inl (by rw [h j hj])
    · by_cases hk : j = k
      · exact .inl (by simp [hk])
      · exact .inr ⟨hj, by simp [hk], by simp [hk]⟩

end

/-- Settles O12: cursor and flags read no word, and `responseTo` and `nextWords` read those that `readsWord` names. -/
theorem commandsReadOnlyTheStatedWords : Obligations.CommandsReadOnlyTheStatedWords := by
  intro i s ws h
  have hanswer := afterCommand_answers i { s with words := ws }
  rw [responseTo_with_words h] at hanswer
  refine ⟨_, _, _, exec_eq i s, exec_eq i _, afterCommand_answers i s, hanswer, rfl, rfl, rfl,
    readAt_nextWords_with_words h⟩

/-! ## Reset and the commands that only look (10_state.md R29, R21) -/

theorem statusWord_resetWith (v : Bool) :
    statusWord (State.resetWith v) = if v then 0x00020000#32 else 0x00000000#32 := by
  cases v <;> decide

/-- Settles O1: STATUS answers the status word of the reset state and does nothing else. -/
theorem resetLeavesTheStatedValues : Obligations.ResetLeavesTheStatedValues := by
  intro v
  refine ⟨readAt_replicate 0, rfl, rfl, rfl, _, rfl, ?_, respond_sameBlock _ _ _⟩
  rw [← statusWord_resetWith]
  exact respond_answers _ _ _

/-- A command that only looks does nothing but respond. -/
theorem afterCommand_eq_respond {i : Instr} (h : i.changesBlock = false) (s : State) :
    afterCommand i s = s.respond (responseTo i s).status (responseTo i s).data := by
  cases i with
  | absorb | twist | untwist | next | prev => contradiction
  | _ => rfl

/-- Settles O10: such a command is its response alone. -/
theorem observingCommandsChangeNoState : Obligations.ObservingCommandsChangeNoState := by
  intro i s h
  refine ⟨afterCommand i s, exec_eq i s, ?_, afterCommand_ports i s⟩
  rw [afterCommand_eq_respond h]
  exact respond_sameBlock _ _ _

end Sys2Proof.Machine

/-! # Reads that repeat and reads that do not (20_memory.md R46) -/

namespace Sys2Proof.Machine

/-! ## A response depends on the architectural state alone (10_state.md R27) -/

section
variable {s t : State}

theorem predictedWord_of_sameBlock (h : SameBlock s t) : predictedWord t = predictedWord s := by
  obtain ⟨hwords, hcursor, -, -⟩ := h
  simp only [predictedWord_eq, generationRead, hwords, hcursor]

theorem statusWord_of_sameBlock (h : SameBlock s t) : statusWord t = statusWord s := by
  obtain ⟨-, hcursor, hready, hverify⟩ := h
  simp only [statusWord, hcursor, hready, hverify]

theorem responseTo_of_sameBlock (h : SameBlock s t) (i : Instr) : responseTo i t = responseTo i s := by
  cases i with
  | status => simp only [responseTo, statusWord_of_sameBlock h]
  | absorb raw => simp only [responseTo, h.ready, h.verify, predictedWord_of_sameBlock h]
  | next => simp only [responseTo, h.ready, predictedWord_of_sameBlock h]
  | prev => simp only [responseTo, h.ready, h.words, h.cursor]
  | readState index => simp only [responseTo, h.words]
  | _ => rfl

end

/-! ## The commands that only look repeat -/

theorem afterCommand_sameBlock {i : Instr} (h : i.changesBlock = false) (s : State) : SameBlock s (afterCommand i s) := by
  rw [afterCommand_eq_respond h]
  exact respond_sameBlock _ _ _

/-- Issued again, such a command gives the response it gave. -/
theorem responseTo_afterCommand {i : Instr} (h : i.changesBlock = false) (s : State) :
    responseTo i (afterCommand i s) = responseTo i s :=
  responseTo_of_sameBlock (afterCommand_sameBlock h s) i

/-! ## A forward or backward move never stays in place -/

theorem wrapAdd_one_ne (c : Index) : wrapAdd c 1 ≠ c := by
  have hc := c.isLt
  rw [Ne, Fin.ext_iff, wrapAdd_val]
  omega

theorem wrapPred_ne (c : Index) : wrapPred c ≠ c := by
  have hc := c.isLt
  rw [Ne, Fin.ext_iff, wrapPred_val]
  omega

/-- After readiness NEXT, PREV and ABSORB, in either mode, move the cursor. -/
theorem nextCursor_ne_of_ready {i : Instr} {s : State} (hr : s.ready = true)
    (hi : i = .next ∨ i = .prev ∨ ∃ raw, i = .absorb raw) : nextCursor i s ≠ s.cursor := by
  obtain rfl | rfl | ⟨raw, rfl⟩ := hi
  · simpa only [nextCursor, hr, if_true] using wrapAdd_one_ne s.cursor
  · simpa only [nextCursor, hr, if_true] using wrapPred_ne s.cursor
  · exact wrapAdd_one_ne s.cursor

/-- Settles O11: the first four only look, so the second response is the first one again; the next three move the cursor, the
second time too, since the machine is still ready; the last two respond (OK, 0) by `responseTo`. -/
theorem readsThatRepeatAndReadsThatDoNot : Obligations.ReadsThatRepeatAndReadsThatDoNot := by
  refine ⟨?repeating, ?moving, ?wordless⟩
  case repeating =>
    intro s x i hi
    have hlooks : i.changesBlock = false := by
      obtain rfl | rfl | rfl | rfl : i = .status ∨ i = .readState x ∨ i = .temper x ∨ i = .untemper x := by simpa using hi
      all_goals rfl
    have hsecond := afterCommand_answers i (afterCommand i s)
    rw [responseTo_afterCommand hlooks] at hsecond
    exact ⟨_, _, _, exec_eq i s, exec_eq i _, afterCommand_answers i s, hsecond,
      afterCommand_sameBlock hlooks s, afterCommand_sameBlock hlooks _⟩
  case moving =>
    intro s x hr i hi
    have hmoves : i = .next ∨ i = .prev ∨ ∃ raw, i = .absorb raw := by
      cases hv : s.verify with
      | false => exact (show i = .next ∨ i = .prev by simpa [hv] using hi).imp_right .inl
      | true =>
        have hthree : i = .next ∨ i = .prev ∨ i = .absorb x := by simpa [hv] using hi
        exact hthree.imp_right (Or.imp_right fun h => ⟨x, h⟩)
    have hstillReady : (afterCommand i s).ready = true := nextReady_of_ready hr i
    exact ⟨_, _, exec_eq i s, exec_eq i _, fun hsame => nextCursor_ne_of_ready hstillReady hmoves hsame.cursor⟩
  case wordless =>
    intro s i hi
    have hresponse : responseTo i s = ⟨.ok, 0⟩ := by
      obtain rfl | rfl : i = .twist ∨ i = .untwist := by simpa using hi
      · rfl
      · rfl
    exact ⟨_, exec_eq i s, hresponse ▸ afterCommand_answers i s⟩

end Sys2Proof.Machine

/-! # Requests and responses as words (30_encoding.md R60 to R66)

A request word is its opcode over its data field, so `decode` and `encode` are compared field by field: the opcode of a decoded
command is that of the word, its data that of the word in format D and 0 in format Z. -/

namespace Sys2Proof

/-! ## The fields of a request -/

theorem op_append_data (w : Request) : (Request.op w ++ Request.data w : Request) = w :=
  BitVec.extractLsb'_append_extractLsb'

@[simp] theorem op_encode (i : Instr) : Request.op (encode i) = i.opcode := op_append _ _

@[simp] theorem data_encode (i : Instr) : Request.data (encode i) = i.data := data_append _ _

theorem and_opcodeMask (w : Request) : w &&& 0xF00000000#36 = Request.op w ++ (0#32 : Word) := by
  conv_lhs => rw [← op_append_data w]
  exact append_and_opcodeMask _ _

/-! ## Decoding after encoding -/

theorem decode_encode (i : Instr) : decode (encode i) = i := by
  unfold decode
  rw [op_encode, data_encode]
  cases i <;> rfl

theorem encode_injective : Function.Injective encode := Function.LeftInverse.injective decode_encode

/-- A request spells itself as a number, where there are bits enough for it. -/
theorem requestOfTableWord_toNat {nbits : Nat} (hbits : 36 ≤ nbits) (w : Request) :
    requestOfTableWord nbits w.toNat = some w := by
  have hfits : w.toNat < 2 ^ nbits := w.isLt.trans_le (Nat.pow_le_pow_right (by decide) hbits)
  unfold requestOfTableWord requestOfNumber
  rw [Nat.mod_eq_of_lt hfits, if_pos w.isLt, BitVec.ofNat_toNat, BitVec.setWidth_eq]

/-- Settles O50: `decode` finds the two fields that `encode` put together. -/
theorem decodeOfEncodeIsTheCommand : Obligations.DecodeOfEncodeIsTheCommand := by
  intro i
  refine ⟨decode_encode i, ?_⟩
  rw [decodeTableWord, requestOfTableWord_toNat (by decide), Option.map_some, decode_encode]

/-! ## Encoding after decoding -/

@[simp] theorem opcode_decode (w : Request) : (decode w).opcode = Request.op w := by
  unfold decode
  apply BitVec.eq_of_toNat_eq
  split
  case h_16 =>
    -- the last arm of `decode`: a 4-bit value that is none of 0 to 14
    have hlt := (Request.op w).isLt
    grind [Instr.opcode]
  all_goals
    rename_i hop
    exact hop.symm

/-- Format D takes the whole data field, format Z ignores it (30_encoding.md R61, R62). -/
theorem data_decode (w : Request) : (decode w).data = if (decode w).format = .D then Request.data w else 0 := by
  unfold decode
  split <;> rfl

theorem data_decode_of_format_D {w : Request} (h : (decode w).format = .D) : (decode w).data = Request.data w := by
  rw [data_decode, if_pos h]

theorem encode_decode_of_format_D {w : Request} (h : (decode w).format = .D) : encode (decode w) = w := by
  rw [encode, opcode_decode, data_decode_of_format_D h, op_append_data]

theorem encode_decode_of_format_Z {w : Request} (h : (decode w).format = .Z) :
    encode (decode w) = Request.op w ++ (0#32 : Word) := by
  have hdata : (decode w).data = 0#32 := by simp [data_decode, h]
  rw [encode, opcode_decode, hdata]

/-! ## The rows of the opcode table -/

/-- A row of the table compares the opcode with its own, and nothing else. -/
theorem selects_iff {r : OpcodeRow} (hr : r ∈ opcodeTable) (w : Request) :
    r.selects w = true ↔ r.pattern = Request.op w ++ (0#32 : Word) := by
  have hmask : ∀ r ∈ opcodeTable, r.mask = 0xF00000000#36 := by decide
  rw [OpcodeRow.selects, hmask r hr, and_opcodeMask, beq_iff_eq, eq_comm]

theorem row_eq_of_pattern_eq : ∀ r ∈ opcodeTable, ∀ r' ∈ opcodeTable, r.pattern = r'.pattern → r = r' := by
  decide

theorem encodesItsRow (i : Instr) : Laws.EncodesItsRow.Statement i := by
  cases i with
  | status => exact Laws.EncodesItsRow.status
  | absorb raw => exact Laws.EncodesItsRow.absorb raw
  | twist => exact Laws.EncodesItsRow.twist
  | untwist => exact Laws.EncodesItsRow.untwist
  | temper y => exact Laws.EncodesItsRow.temper y
  | untemper y => exact Laws.EncodesItsRow.untemper y
  | next => exact Laws.EncodesItsRow.next
  | prev => exact Laws.EncodesItsRow.prev
  | readState index => exact Laws.EncodesItsRow.readState index
  | reserved9 => exact Laws.EncodesItsRow.reserved9
  | reservedA => exact Laws.EncodesItsRow.reservedA
  | reservedB => exact Laws.EncodesItsRow.reservedB
  | reservedC => exact Laws.EncodesItsRow.reservedC
  | reservedD => exact Laws.EncodesItsRow.reservedD
  | reservedE => exact Laws.EncodesItsRow.reservedE
  | reservedF => exact Laws.EncodesItsRow.reservedF

theorem selects_congr {r : OpcodeRow} (hr : r ∈ opcodeTable) {w w' : Request} (hop : Request.op w = Request.op w') :
    r.selects w = true ↔ r.selects w' = true := by
  rw [selects_iff hr, selects_iff hr, hop]

/-- No word is selected by two rows. -/
theorem row_unique {r r' : OpcodeRow} (hr : r ∈ opcodeTable) (hr' : r' ∈ opcodeTable) {w : Request}
    (h : r.selects w = true) (h' : r'.selects w = true) : r = r' :=
  row_eq_of_pattern_eq r hr r' hr' (((selects_iff hr w).1 h).trans ((selects_iff hr' w).1 h').symm)

/-- A word is selected by the row of the command it decodes to. -/
theorem exists_row_of_decode (w : Request) :
    ∃ r ∈ opcodeTable, r.selects w = true ∧ r.mnemonic = (decode w).mnemonic ∧ r.format = (decode w).format := by
  obtain ⟨r, hr, hmnemonic, hformat, hselects⟩ := encodesItsRow (decode w)
  have hop : Request.op (encode (decode w)) = Request.op w := by rw [op_encode, opcode_decode]
  exact ⟨r, hr, (selects_congr hr hop).1 hselects, hmnemonic, hformat⟩

/-- Words with the same opcode decode to commands of one row. -/
theorem decode_same_row {w w' : Request} (hop : Request.op w = Request.op w') :
    (decode w).mnemonic = (decode w').mnemonic ∧ (decode w).format = (decode w').format := by
  obtain ⟨r, hr, hselects, hmnemonic, hformat⟩ := exists_row_of_decode w
  obtain ⟨r', hr', hselects', hmnemonic', hformat'⟩ := exists_row_of_decode w'
  obtain rfl := row_unique hr hr' hselects ((selects_congr hr' hop).2 hselects')
  exact ⟨hmnemonic.symm.trans hmnemonic', hformat.symm.trans hformat'⟩

/-- Settles O51: a word is selected by the row of its command, and by no other, since the rows differ in their patterns. -/
theorem everyRequestSelectsOneRowByItsOpcode : Obligations.EveryRequestSelectsOneRowByItsOpcode := by
  refine ⟨?one, ?itsRow, ?opcodeAlone⟩
  case one =>
    intro w
    obtain ⟨r, hr, hselects, -, -⟩ := exists_row_of_decode w
    exact ⟨r, ⟨hr, hselects⟩, fun r' ⟨hr', hselects'⟩ => row_unique hr' hr hselects' hselects⟩
  case itsRow =>
    intro w r hr hselects
    obtain ⟨r', hr', hselects', hmnemonic, -⟩ := exists_row_of_decode w
    rw [← hmnemonic, row_unique hr hr' hselects hselects']
  case opcodeAlone =>
    intro w w' hop
    exact (decode_same_row hop).1

/-! ## The data field (30_encoding.md R61) -/

/-- In format Z the data field does not matter: both words have one opcode, so both commands are encoded as that
opcode over 0. -/
theorem decode_append_of_format_Z {w : Request} (h : (decode w).format = .Z) (d : Word) :
    decode (Request.op w ++ d) = decode w := by
  have hop : Request.op (Request.op w ++ d) = Request.op w := op_append _ _
  have hformat : (decode (Request.op w ++ d)).format = .Z := (decode_same_row hop).2.trans h
  apply encode_injective
  rw [encode_decode_of_format_Z hformat, encode_decode_of_format_Z h, hop]

/-- Settles O52: the decoded command encodes as the whole word in format D, as its opcode over 0 in format Z. -/
theorem onlyFormatDReadsTheDataField : Obligations.OnlyFormatDReadsTheDataField := by
  intro w
  refine ⟨fun h => ⟨encode_decode_of_format_D h, data_decode_of_format_D h⟩, fun h => ⟨?_, decode_append_of_format_Z h⟩⟩
  rw [encode_decode_of_format_Z h, and_opcodeMask]

/-- Settles O53: each word is a literal, and decoding it computes. -/
theorem requestWordsOfTheSpecDecodeAsStated : Obligations.RequestWordsOfTheSpecDecodeAsStated := by
  unfold Obligations.RequestWordsOfTheSpecDecodeAsStated
  decide

/-! ## Responses (30_encoding.md R63, R64) -/

theorem ofCode_eq_some_iff (c : BitVec 3) (st : Status) : Status.ofCode c = some st ↔ st.code = c := by
  revert c
  cases st <;> decide

theorem ofCode_eq_none_iff : ∀ c : BitVec 3, Status.ofCode c = none ↔ 5 ≤ c.toNat := by
  decide

@[simp] theorem code_toWord (r : Response) : r.toWord.extractLsb' 32 3 = r.status.code :=
  BitVec.extractLsb'_append_eq_left

@[simp] theorem data_toWord (r : Response) : r.toWord.extractLsb' 0 32 = r.data :=
  BitVec.extractLsb'_append_eq_right

/-- Reading a response word is the inverse of writing one. -/
theorem ofWord_eq_some_iff (w : ResponseWord) (r : Response) : Response.ofWord w = some r ↔ r.toWord = w := by
  constructor
  · intro h
    obtain ⟨st, hcode, rfl⟩ := Option.map_eq_some_iff.1 h
    rw [Response.toWord, (ofCode_eq_some_iff _ _).1 hcode]
    exact BitVec.extractLsb'_append_extractLsb'
  · rintro rfl
    rw [Response.ofWord, code_toWord, data_toWord, (ofCode_eq_some_iff _ _).2 rfl, Option.map_some]

/-- Settles O54: a response word reads back by `ofWord_eq_some_iff`, and reads as none where its code stands for no status. -/
theorem responseWordsCarryStatusAndData : Obligations.ResponseWordsCarryStatusAndData := by
  refine ⟨fun r => ⟨(ofWord_eq_some_iff _ r).2 rfl, code_toWord r, data_toWord r⟩, fun w r => (ofWord_eq_some_iff w r).1,
    fun w => ?_, rfl, rfl, rfl, rfl, rfl⟩
  rw [Response.ofWord, Option.map_eq_none_iff, ofCode_eq_none_iff]

end Sys2Proof

/-! # The host's assembly language (30_encoding.md R69) -/

namespace Sys2Proof.Machine

/-! ## The request of a line -/

/-- The data field of a mnemonic's command: the operand in format D, 0 in format Z. -/
theorem data_instr (m : Mnemonic) (d : Word) : (m.instr d).data = if m.format = .D then d else 0 := by
  cases m <;> rfl

theorem assemble_statement_of_format_Z {m : Mnemonic} (h : m.format = .Z) :
    assemble (.statement m none) = some (encode (m.instr 0)) := by
  simp [assemble, HostLine.wellFormed, h]

theorem assemble_statement_of_format_D {m : Mnemonic} (h : m.format = .D) {n : Nat} (hn : n < 2 ^ 32) :
    assemble (.statement m (some n)) = some (encode (m.instr (BitVec.ofNat 32 n))) := by
  have hwf : (HostLine.statement m (some n)).wellFormed = true := by rw [HostLine.wellFormed, h, decide_eq_true hn]; rfl
  simp [assemble, hwf]

theorem assemble_illegal {op : Nat} (h9 : 9 ≤ op) (h15 : op ≤ 15) :
    assemble (.illegal op) = some (BitVec.ofNat 4 op ++ (0 : Word)) := by
  simp [assemble, HostLine.wellFormed, h9, h15]

theorem assemble_of_not_wellFormed {l : HostLine} (h : l.wellFormed = false) : assemble l = none := by
  simp [assemble, h]

/-- The reserved commands are those with opcodes 0x9 to 0xF (44_inspection.md R162). -/
theorem isReserved_iff (i : Instr) : i.isReserved = true ↔ 9 ≤ i.opcode.toNat := by
  cases i <;> simp [Instr.isReserved, Instr.opcode]

/-- Settles O55: a statement assembles to the request word of its command, which decodes to it; `.illegal` to its opcode over 0,
and the opcode decides whether a command is reserved. -/
theorem assembledLinesDecodeToTheirCommand : Obligations.AssembledLinesDecodeToTheirCommand := by
  refine ⟨?formatZ, ?formatD, ?illegal, fun l => assemble_of_not_wellFormed⟩
  case formatZ =>
    intro m h
    have hdata : (m.instr 0).data = 0 := by rw [data_instr, ite_self]
    exact ⟨_, assemble_statement_of_format_Z h, decode_encode _, (data_encode _).trans hdata⟩
  case formatD =>
    intro m n h hn
    have hdata : (m.instr (BitVec.ofNat 32 n)).data = BitVec.ofNat 32 n := by rw [data_instr, if_pos h]
    refine ⟨_, assemble_statement_of_format_D h hn, decode_encode _, ?_⟩
    rw [← Request.data, data_encode, hdata, BitVec.toNat_ofNat, Nat.mod_eq_of_lt hn]
  case illegal =>
    intro op h9 h15
    have hop : (Request.op (BitVec.ofNat 4 op ++ (0 : Word))).toNat = op := by
      rw [op_append, BitVec.toNat_ofNat, Nat.mod_eq_of_lt (by omega)]
    refine ⟨_, assemble_illegal h9 h15, hop, ?_⟩
    rw [isReserved_iff, opcode_decode, hop]
    exact h9

/-! ## Repetition -/

section
variable (ls : List HostLine) (opened : List (Nat × List HostLine)) (done : List HostLine)

/-- A line that neither opens nor closes a block is kept as it stands. -/
theorem expandFrom_cons {l : HostLine} (hendr : l ≠ .endr) (hrept : ∀ k, l ≠ .rept k) :
    expandFrom (l :: ls) opened done = expandFrom ls opened (done ++ [l]) := by
  cases l with
  | rept n => exact absurd rfl (hrept n)
  | endr => exact absurd rfl hendr
  | _ => rfl

theorem expandFrom_append {body : List HostLine} (h : ∀ l ∈ body, l ≠ .endr ∧ ∀ k, l ≠ .rept k) :
    expandFrom (body ++ ls) opened done = expandFrom ls opened (done ++ body) := by
  induction body generalizing done with
  | nil => rw [List.nil_append, List.append_nil]
  | cons l body ih =>
    obtain ⟨⟨hendr, hrept⟩, hbody⟩ := List.forall_mem_cons.1 h
    rw [List.cons_append, expandFrom_cons _ _ _ hendr hrept, ih _ hbody, List.append_assoc, List.singleton_append]

/-- A block around lines that neither open nor close one is written out where it stands. -/
theorem expandFrom_block (n : Nat) {body : List HostLine} (h : ∀ l ∈ body, l ≠ .endr ∧ ∀ k, l ≠ .rept k) :
    expandFrom (.rept n :: (body ++ .endr :: ls)) opened done =
      expandFrom ls opened (done ++ (List.replicate n body).flatten) := by
  rw [expandFrom, expandFrom_append _ _ _ h, List.nil_append, expandFrom]

end

/-! ## Reset -/

/-- `.reset` leaves the reset values from any state, with `rst` released (70_reset_and_hazards.md R200). -/
theorem resetLine_atResetValues (v : Bool) (s : State) : AtResetValues (resetLine v s) where
  words i := by simp [resetLine]
  cursor := by simp [resetLine]
  ready := by simp [resetLine]
  verify := by simp [resetLine]

/-- Settles O56: the blocks by `expandFrom_block`, the reset by the rules of the three moves that make it. -/
theorem hostDirectivesRepeatAndReset : Obligations.HostDirectivesRepeatAndReset := by
  refine ⟨?flat, ?nested, ?reset⟩
  case flat =>
    intro n body h
    exact expandFrom_block [] [] [] n h
  case nested =>
    intro m n l hendr hrept
    have hline : ∀ l' ∈ [l], l' ≠ .endr ∧ ∀ k, l' ≠ .rept k := by simpa using ⟨hendr, hrept⟩
    calc expandFrom [.rept m, .rept n, l, .endr, .endr] [] []
      _ = expandFrom (.rept n :: ([l] ++ [.endr, .endr])) [(m, [])] [] := rfl
      _ = expandFrom [.endr] [(m, [])] (List.replicate n [l]).flatten := expandFrom_block _ _ _ n hline
      _ = some (List.replicate m (List.replicate n [l]).flatten).flatten := rfl
      _ = some (List.replicate (m * n) l) := by
        rw [List.flatten_replicate_singleton, List.flatten_replicate_replicate]
  case reset =>
    intro v s
    refine ⟨resetLine v s, rfl, resetLine_atResetValues v s, ?_⟩
    simp [resetLine]

end Sys2Proof.Machine

/-! # Ingestion (40_ingestion.md) -/

namespace Sys2Proof.Machine

/-! ## ABSORB on its three paths (R80) -/

theorem responseTo_absorb_of_notVerifying {s : State} (h : s.ready = false ∨ s.verify = false) (raw : Word) :
    responseTo (.absorb raw) s = ⟨.ok, 0⟩ := by
  obtain h | h := h
  · simp [responseTo, h]
  · simp [responseTo, h]

theorem responseTo_absorb_of_verifying {s : State} (hr : s.ready = true) (hv : s.verify = true) (raw : Word) :
    responseTo (.absorb raw) s = ⟨if predictedWord s = raw then .ok else .consistencyMismatch, predictedWord s⟩ := by
  simp [responseTo, hr, hv]

/-- The pre-readiness path stores into the array as it stands. -/
theorem readAt_nextWords_absorb_of_notReady {s : State} (hr : s.ready = false) (raw : Word) (j : Index) :
    readAt (nextWords (.absorb raw) s) j = if j = s.cursor then untemper raw else readAt s.words j := by
  simp [nextWords, hr, readAt_writeAt]

theorem nextWords_absorb_of_verifying {s : State} (hr : s.ready = true) (hv : s.verify = true) (raw : Word) :
    nextWords (.absorb raw) s = generationRead s := by
  simp [nextWords, hr, hv]

theorem nextWords_absorb_of_storing {s : State} (hr : s.ready = true) (hv : s.verify = false) (raw : Word) :
    nextWords (.absorb raw) s = writeAt (generationRead s) s.cursor (untemper raw) := by
  simp [nextWords, hr, hv]

/-- Settles O13, field by field. -/
theorem absorbFollowsItsThreePaths : Obligations.AbsorbFollowsItsThreePaths := by
  intro raw s
  refine ⟨_, _, exec_eq _ s, afterCommand_answers _ s, rfl, wrapAdd_val s.cursor 1, ?filling,
    fun hr => nextReady_of_ready hr (.absorb raw), ?verifying, ?storing⟩
  case filling =>
    intro hr
    have hready : nextReady (.absorb raw) s = decide (s.cursor.val = 623) := by simp [nextReady_eq, absorbCount, hr]
    exact ⟨responseTo_absorb_of_notVerifying (.inl hr) raw, hready, readAt_nextWords_absorb_of_notReady hr raw⟩
  case verifying =>
    intro hr hv
    rw [responseTo_absorb_of_verifying hr hv]
    exact ⟨nextWords_absorb_of_verifying hr hv raw, predictedWord_eq s, rfl⟩
  case storing =>
    intro hr hv
    refine ⟨responseTo_absorb_of_notVerifying (.inr hv) raw, fun j => ?_⟩
    rw [afterCommand_words, nextWords_absorb_of_storing hr hv, readAt_writeAt]

/-! ## The first 624 ABSORBs (R81) -/

theorem runCommands_append {is : List Instr} {s t : State} (h : runCommands is s = .next t) (js : List Instr) :
    runCommands (is ++ js) s = runCommands js t := by
  induction is generalizing s with
  | nil =>
    obtain rfl : s = t := Host.Outcome.next.inj h
    rfl
  | cons i is ih =>
    rw [runCommands_cons] at h
    rw [List.cons_append, runCommands_cons, ih h]

/-- The first `k` words of `ws`, untempered, stand in the array's first `k` places; the machine is ready once that is all of
them. -/
structure FilledBy (ws : Vector Word 624) (k : Nat) (s : State) : Prop where
  words  : ∀ i : Index, i.val < k → readAt s.words i = untemper ws[i.val]
  cursor : s.cursor.val = k % 624
  ready  : s.ready = decide (k = 624)

theorem resetWith_filledBy (v : Bool) (ws : Vector Word 624) : FilledBy ws 0 (State.resetWith v) :=
  ⟨fun _ h => absurd h (Nat.not_lt_zero _), rfl, rfl⟩

theorem afterAbsorb_filledBy {ws : Vector Word 624} {k : Nat} {s : State} (h : FilledBy ws k s) (hk : k < 624) :
    FilledBy ws (k + 1) (afterCommand (.absorb ws[k]) s) := by
  obtain ⟨hwords, hcursor, hready⟩ := h
  rw [Nat.mod_eq_of_lt hk] at hcursor
  have hr : s.ready = false := hready.trans (decide_eq_false hk.ne)
  constructor
  case words =>
    intro i hi
    rw [afterCommand_words, readAt_nextWords_absorb_of_notReady hr]
    split
    case isTrue hat => simp only [hat, hcursor]
    case isFalse hoff =>
      have hne : i.val ≠ k := fun e => hoff (Fin.ext (e.trans hcursor.symm))
      exact hwords i (by omega)
  case cursor => rw [afterCommand_cursor, nextCursor, wrapAdd_val, hcursor]
  case ready => simp [nextReady_eq, absorbCount, hr, hcursor]

theorem runCommands_absorbs_filledBy (v : Bool) (ws : Vector Word 624) {k : Nat} (hk : k ≤ 624) :
    ∃ t, runCommands ((ws.toList.take k).map Instr.absorb) (State.resetWith v) = .next t ∧ FilledBy ws k t := by
  induction k with
  | zero => exact ⟨_, rfl, resetWith_filledBy v ws⟩
  | succ k ih =>
    obtain ⟨t, hrun, hfilled⟩ := ih (by omega)
    have hlast : (ws.toList.take (k + 1)).map Instr.absorb = (ws.toList.take k).map Instr.absorb ++ [.absorb ws[k]] := by
      rw [List.take_succ_eq_append_getElem (by simpa using hk), List.map_append, List.map_singleton, Vector.getElem_toList]
    rw [hlast, runCommands_append hrun, runCommands_cons]
    exact ⟨_, rfl, afterAbsorb_filledBy hfilled hk⟩

/-- Settles O14: `FilledBy` after all 624 words, and after the first `k`. -/
theorem sixHundredTwentyFourAbsorbsFillTheArray : Obligations.SixHundredTwentyFourAbsorbsFillTheArray := by
  intro v ws
  constructor
  case left =>
    obtain ⟨t, hrun, hwords, hcursor, hready⟩ := runCommands_absorbs_filledBy v ws le_rfl
    rw [List.take_of_length_le (by simp)] at hrun
    exact ⟨t, hrun, fun i => hwords i i.isLt, Fin.ext hcursor, hready⟩
  case right =>
    intro k hk
    obtain ⟨t, hrun, -, hcursor, hready⟩ := runCommands_absorbs_filledBy v ws hk.le
    exact ⟨t, hrun, hready.trans (decide_eq_false hk.ne), hcursor.trans (Nat.mod_eq_of_lt hk)⟩

/-! ## ABSORB on the verification path is NEXT (R82) -/

theorem sameBlock_trans {s t u : State} (h : SameBlock s t) (h' : SameBlock t u) : SameBlock s u :=
  ⟨h'.words.trans h.words, h'.cursor.trans h.cursor, h'.ready.trans h.ready, h'.verify.trans h.verify⟩

/-- What a command does to the architectural state depends on it alone (10_state.md R27). -/
theorem afterCommand_of_sameBlock {s t : State} (h : SameBlock s t) (i : Instr) :
    SameBlock (afterCommand i s) (afterCommand i t) := by
  obtain ⟨hwords, hcursor, hready, hverify⟩ := h
  refine ⟨?words, ?cursor, ?ready, hverify⟩
  case words =>
    cases i <;> simp only [afterCommand_words, nextWords, generationRead, hwords, hcursor, hready, hverify]
  case cursor => cases i <;> simp only [afterCommand_cursor, nextCursor, hcursor, hready]
  case ready => cases i <;> simp only [afterCommand_ready, nextReady, hcursor, hready]

theorem responseTo_next_of_ready {s : State} (hr : s.ready = true) : responseTo .next s = ⟨.ok, predictedWord s⟩ := by
  simp [responseTo, hr]

/-- After readiness an ABSORB that leaves the array NEXT reads leaves the state NEXT leaves. -/
theorem sameBlock_next_absorb {s : State} (hr : s.ready = true) {raw : Word}
    (h : nextWords (.absorb raw) s = generationRead s) :
    SameBlock (afterCommand .next s) (afterCommand (.absorb raw) s) where
  words := by rw [afterCommand_words, afterCommand_words, h, nextWords, if_pos hr]
  cursor := by rw [afterCommand_cursor, afterCommand_cursor, nextCursor, nextCursor, if_pos hr]
  ready := (nextReady_of_ready hr (.absorb raw)).trans (nextReady_of_ready hr .next).symm
  verify := rfl

theorem sameBlock_runNexts_runAbsorbs (raws : List Word) {s s' : State} (h : SameBlock s s') (hr : s.ready = true)
    (hv : s.verify = true) :
    ∃ t u, runCommands (List.replicate raws.length Instr.next) s = .next t ∧
      runCommands (raws.map Instr.absorb) s' = .next u ∧ SameBlock t u := by
  induction raws generalizing s s' with
  | nil => exact ⟨s, s', rfl, rfl, h⟩
  | cons raw raws ih =>
    have hstep : SameBlock (afterCommand .next s) (afterCommand (.absorb raw) s') :=
      sameBlock_trans (sameBlock_next_absorb hr (nextWords_absorb_of_verifying hr hv raw)) (afterCommand_of_sameBlock h _)
    rw [List.length_cons, List.replicate_succ, List.map_cons, runCommands_cons, runCommands_cons]
    exact ih hstep (nextReady_of_ready hr .next) hv

/-- Settles O16: one ABSORB by `sameBlock_next_absorb`, a run of them by induction on it. -/
theorem verifyingAbsorbIsNextButForItsStatus : Obligations.VerifyingAbsorbIsNextButForItsStatus := by
  refine ⟨fun raw s hr hv => ?_, fun raws s hr hv => sameBlock_runNexts_runAbsorbs raws ⟨rfl, rfl, rfl, rfl⟩ hr hv⟩
  exact ⟨_, _, predictedWord s, exec_eq _ s, exec_eq _ s, responseTo_next_of_ready hr ▸ afterCommand_answers _ s,
    responseTo_absorb_of_verifying hr hv raw ▸ afterCommand_answers _ s,
    sameBlock_next_absorb hr (nextWords_absorb_of_verifying hr hv raw)⟩

/-! ## UNTEMPER undoes TEMPER, stage by stage (42_temper.md R122, R123)

Each stage of temper is `y ^^^ L y` for an `L` that distributes over XOR and shifts every bit out of the word after some number
of uses. Undoing it starts from `y ^^^ L y`; each round of `x ↦ (y ^^^ L y) ^^^ L x` applies `L` to what is still wrong. -/

section
variable {L : Word → Word} (hL : ∀ a b, L (a ^^^ b) = L a ^^^ L b)
include hL

/-- `n` rounds that begin with the error `e` leave the error `L^[n] e`. -/
theorem repeatTimes_round (y e : Word) (n : Nat) :
    repeatTimes (fun x => (y ^^^ L y) ^^^ L x) n (y ^^^ e) = y ^^^ L^[n] e := by
  induction n generalizing e with
  | zero => rfl
  | succ n ih =>
    have hround : (y ^^^ L y) ^^^ L (y ^^^ e) = y ^^^ L e := by
      rw [hL, BitVec.xor_assoc, ← BitVec.xor_assoc (L y), BitVec.xor_self, BitVec.zero_xor]
    rw [repeatTimes, hround, ih, Function.iterate_succ_apply]

theorem repeatTimes_undoes_stage {y : Word} {n : Nat} (hzero : L^[n + 1] y = 0#32) :
    repeatTimes (fun x => (y ^^^ L y) ^^^ L x) n (y ^^^ L y) = y := by
  rw [repeatTimes_round hL, ← Function.iterate_succ_apply, hzero, BitVec.xor_zero]

end

/-- A right shift as the `L` of a stage. -/
def shiftedRight (k : Nat) (x : Word) : Word := x >>> k

/-- A left shift under a mask as the `L` of a stage. -/
def shiftedLeft (k : Nat) (mask x : Word) : Word := (x <<< k) &&& mask

theorem shiftedRight_xor (k : Nat) (a b : Word) :
    shiftedRight k (a ^^^ b) = shiftedRight k a ^^^ shiftedRight k b :=
  BitVec.ushiftRight_xor_distrib a b k

theorem shiftedLeft_xor (k : Nat) (mask a b : Word) :
    shiftedLeft k mask (a ^^^ b) = shiftedLeft k mask a ^^^ shiftedLeft k mask b := by
  ext i hi
  simp only [shiftedLeft, BitVec.shiftLeft_xor_distrib, BitVec.getElem_and, BitVec.getElem_xor, Bool.and_xor_distrib_right]

theorem iterate_shiftedRight (k n : Nat) (x : Word) : (shiftedRight k)^[n] x = x >>> (n * k) := by
  induction n with
  | zero => simp
  | succ n ih => rw [Function.iterate_succ_apply', ih, shiftedRight, ← BitVec.shiftRight_add, Nat.succ_mul]

theorem iterate_shiftedRight_eq_zero {k n : Nat} (h : 32 ≤ n * k) (x : Word) : (shiftedRight k)^[n] x = 0#32 := by
  rw [iterate_shiftedRight, BitVec.ushiftRight_eq_zero h]

/-- Under a mask that is clear below `low`, the bits below `n * k + low` are clear after `n + 1` uses. -/
theorem getLsbD_iterate_shiftedLeft {k low : Nat} {mask : Word} (hmask : ∀ j < low, mask.getLsbD j = false) (x : Word)
    (n : Nat) {i : Nat} (h : i < n * k + low) : ((shiftedLeft k mask)^[n + 1] x).getLsbD i = false := by
  induction n generalizing i with
  | zero => simp [shiftedLeft, hmask i (by omega)]
  | succ n ih =>
    rw [Function.iterate_succ_apply', shiftedLeft, BitVec.getLsbD_and, BitVec.getLsbD_shiftLeft]
    rcases Nat.lt_or_ge i k with hlow | hhigh
    · simp [hlow]
    · have hbelow : i - k < n * k + low := by rw [Nat.succ_mul] at h; omega
      rw [ih hbelow, Bool.and_false, Bool.false_and]

theorem iterate_shiftedLeft_eq_zero {k low n : Nat} {mask : Word} (hmask : ∀ j < low, mask.getLsbD j = false)
    (h : 32 ≤ n * k + low) (x : Word) : (shiftedLeft k mask)^[n + 1] x = 0#32 := by
  apply BitVec.eq_of_getLsbD_eq
  intro i hi
  rw [getLsbD_iterate_shiftedLeft hmask x n (by omega), BitVec.getLsbD_zero]

theorem untemperStage4_temperStage4 (y : Word) : untemperStage4 (temperStage4 y) = y :=
  repeatTimes_undoes_stage (n := 1) (shiftedRight_xor 18) (iterate_shiftedRight_eq_zero (by decide) y)

theorem untemperStage3_temperStage3 (y : Word) : untemperStage3 (temperStage3 y) = y :=
  repeatTimes_undoes_stage (n := 1) (shiftedLeft_xor 15 Config.TC)
    (iterate_shiftedLeft_eq_zero (low := 17) (by decide) (by decide) y)

theorem untemperStage2_temperStage2 (y : Word) : untemperStage2 (temperStage2 y) = y :=
  repeatTimes_undoes_stage (n := 4) (shiftedLeft_xor 7 Config.TB)
    (iterate_shiftedLeft_eq_zero (low := 7) (by decide) (by decide) y)

theorem untemperStage1_temperStage1 (y : Word) : untemperStage1 (temperStage1 y) = y :=
  repeatTimes_undoes_stage (n := 2) (shiftedRight_xor 11) (iterate_shiftedRight_eq_zero (by decide) y)

theorem untemper_temper (y : Word) : untemper (temper y) = y := by
  rw [untemper, temper, untemperStage4_temperStage4, untemperStage3_temperStage3, untemperStage2_temperStage2,
    untemperStage1_temperStage1]

/-! ## ABSORB of the true continuation is NEXT (R83) -/

/-- Settles O17: in verification mode whatever the operand; on the store path the word stored is the word already there. -/
theorem storingTheTrueContinuationIsNext : Obligations.StoringTheTrueContinuationIsNext := by
  intro s hr
  have hwords : nextWords (.absorb (predictedWord s)) s = generationRead s := by
    cases hv : s.verify with
    | true => exact nextWords_absorb_of_verifying hr hv _
    | false => rw [nextWords_absorb_of_storing hr hv, predictedWord_eq, untemper_temper, writeAt_readAt]
  exact ⟨_, _, predictedWord s, exec_eq _ s, responseTo_next_of_ready hr ▸ afterCommand_answers _ s, exec_eq _ s,
    sameBlock_next_absorb hr hwords⟩

/-! ## ABSORB_WORDS: its arguments and its words (R86) -/

theorem absorbWordsOperands_eq_none {value width : Int}
    (h : width ≤ 0 ∨ width % 32 ≠ 0 ∨ value < 0 ∨ (2 : Int) ^ width.toNat ≤ value) :
    absorbWordsOperands value width = none := by
  unfold absorbWordsOperands
  by_cases hwidth : width ≤ 0 ∨ width % 32 ≠ 0
  · rw [if_pos hwidth]
  · rw [if_neg hwidth, if_pos (by tauto)]

theorem absorbWordsOperands_eq_wordsOf {value count : Nat} (hcount : 0 < count) (hvalue : value < 2 ^ (32 * count)) :
    absorbWordsOperands value (32 * count : Nat) = some (wordsOf value count) := by
  have hwidth : ¬ (((32 * count : Nat) : Int) ≤ 0 ∨ ((32 * count : Nat) : Int) % 32 ≠ 0) := by omega
  have hfits : ¬ ((value : Int) < 0 ∨ (2 : Int) ^ (32 * count) ≤ value) := by
    have : (value : Int) < 2 ^ (32 * count) := by exact_mod_cast hvalue
    omega
  rw [absorbWordsOperands, Int.toNat_natCast, Int.toNat_natCast, if_neg hwidth, if_neg hfits,
    Nat.mul_div_cancel_left _ (by decide)]

@[simp] theorem length_wordsOf (value count : Nat) : (wordsOf value count).length = count := by
  simp [wordsOf]

theorem toNat_getElem_wordsOf {value count k : Nat} (h : k < (wordsOf value count).length) :
    (wordsOf value count)[k].toNat = value / 2 ^ (32 * k) % 2 ^ 32 := by
  simp only [wordsOf, List.getElem_map, List.getElem_range, BitVec.toNat_ofNat, Nat.shiftRight_eq_div_pow]

/-- The lowest word first, then the words of what stands above it. -/
theorem wordsOf_succ (value count : Nat) :
    wordsOf value (count + 1) = BitVec.ofNat 32 value :: wordsOf (value / 2 ^ 32) count := by
  have habove : ∀ k, value >>> (32 * (k + 1)) = (value / 2 ^ 32) >>> (32 * k) := fun k => by
    rw [← Nat.shiftRight_eq_div_pow, ← Nat.shiftRight_add, Nat.mul_succ, Nat.add_comm]
  simp [wordsOf, List.range_succ_eq_map, Function.comp_def, habove]

/-- The words of a value that fits make it up again. -/
theorem foldr_wordsOf {value count : Nat} (h : value < 2 ^ (32 * count)) :
    (wordsOf value count).foldr (fun w above => w.toNat + 2 ^ 32 * above) 0 = value := by
  induction count generalizing value with
  | zero => exact (Nat.lt_one_iff.1 h).symm
  | succ count ih =>
    have habove : value / 2 ^ 32 < 2 ^ (32 * count) := Nat.div_lt_of_lt_mul (by rwa [← Nat.pow_add, Nat.add_comm])
    rw [wordsOf_succ, List.foldr_cons, ih habove, BitVec.toNat_ofNat, Nat.mod_add_div]

/-- Settles O18: the checks by `absorbWordsOperands`, the words by `wordsOf`. -/
theorem absorbWordsChecksAndSplitsLowWordFirst : Obligations.AbsorbWordsChecksAndSplitsLowWordFirst := by
  constructor
  case left =>
    intro value width s h
    rw [absorbWords, absorbWordsOperands_eq_none h]
  case right =>
    intro value count s hcount hvalue
    refine ⟨wordsOf value count, ?_, length_wordsOf value count, fun k h => toNat_getElem_wordsOf h, foldr_wordsOf hvalue⟩
    rw [absorbWords, absorbWordsOperands_eq_wordsOf hcount hvalue]

/-! ## ABSORB_WORDS: the words sent (R86) -/

/-- One word: on a response of OK the rest is sent, on any other the sequence ends. -/
theorem sendAbsorbs_cons (w : Word) (ws : List Word) (s : State) :
    sendAbsorbs (w :: ws) s =
      if (responseTo (.absorb w) s).status = .ok then sendAbsorbs ws (afterCommand (.absorb w) s)
      else .next (afterCommand (.absorb w) s, .absorbFailed (responseTo (.absorb w) s)) := by
  have hlast : (afterCommand (.absorb w) s).responses.getLast? = some (responseTo (.absorb w) s) := by
    rw [(afterCommand_answers (.absorb w) s).responses, List.getLast?_concat]
  simp only [sendAbsorbs, exec_eq, hlast]

/-- ABSORB has no error but CONSISTENCY_MISMATCH (R85). -/
theorem status_responseTo_absorb {w : Word} {s : State} (h : (responseTo (.absorb w) s).status ≠ .ok) :
    (responseTo (.absorb w) s).status = .consistencyMismatch := by
  by_cases hverifying : s.ready = true ∧ s.verify = true
  · obtain ⟨hr, hv⟩ := hverifying
    rw [responseTo_absorb_of_verifying hr hv] at h ⊢
    exact if_neg fun heq => h (if_pos heq)
  · rw [responseTo_absorb_of_notVerifying (by simpa [or_iff_not_imp_left] using hverifying)] at h
    exact absurd rfl h

/-- Settles O19, by induction on the words. -/
theorem absorbWordsStopsAtTheFirstFailure : Obligations.AbsorbWordsStopsAtTheFirstFailure := by
  intro ws s
  induction ws generalizing s with
  | nil => exact ⟨s, .done, [], rfl, rfl, le_rfl, (List.append_nil _).symm, .inl ⟨rfl, rfl, List.forall_mem_nil _⟩⟩
  | cons w ws ih =>
    have hanswer := (afterCommand_answers (.absorb w) s).responses
    rw [sendAbsorbs_cons]
    by_cases hok : (responseTo (.absorb w) s).status = .ok
    · obtain ⟨t, res, rs, hsend, hrun, hlen, hresponses, hend⟩ := ih (afterCommand (.absorb w) s)
      refine ⟨t, res, responseTo (.absorb w) s :: rs, (if_pos hok).trans hsend, ?_, Nat.succ_le_succ hlen, ?_, ?_⟩
      · exact (runCommands_cons _ _ s).trans hrun
      · rw [hresponses, hanswer, List.append_assoc, List.singleton_append]
      · obtain ⟨hdone, hall, hrs⟩ | ⟨before, r, rfl, hfailed, hmismatch, hbefore⟩ := hend
        · exact .inl ⟨hdone, congrArg Nat.succ hall, List.forall_mem_cons.2 ⟨hok, hrs⟩⟩
        · exact .inr ⟨_ :: before, r, rfl, hfailed, hmismatch, List.forall_mem_cons.2 ⟨hok, hbefore⟩⟩
    · exact ⟨_, _, [responseTo (.absorb w) s], if_neg hok, runCommands_cons _ _ s, Nat.succ_le_succ (Nat.zero_le _), hanswer,
        .inr ⟨[], _, rfl, rfl, status_responseTo_absorb hok, List.forall_mem_nil _⟩⟩

end Sys2Proof.Machine

/-! # The twist / untwist datapath (41_twist.md) -/

namespace Sys2Proof.Machine

/-! ## The transform `g` and its inverse (R100, R103) -/

theorem getLsbD_31_g (y : Word) : (g y).getLsbD 31 = y.getLsbD 0 := by
  have hA : Config.A.getLsbD 31 = true := by decide
  rw [g, BitVec.getLsbD_xor, BitVec.getLsbD_ushiftRight, BitVec.getLsbD_of_ge y _ (by decide), Bool.false_xor]
  cases y.getLsbD 0 with
  | false => rfl
  | true => exact hA

/-- A right shift by one loses bit 0 alone. -/
theorem ushiftRight_one_shiftLeft_one_or_bit (y : Word) : (y >>> 1) <<< 1 ||| (if y.getLsbD 0 then 1 else 0) = y := by
  apply BitVec.eq_of_getLsbD_eq
  intro i hi
  rw [BitVec.getLsbD_or, BitVec.getLsbD_shiftLeft, BitVec.getLsbD_ushiftRight]
  cases i with
  | zero => cases y.getLsbD 0 <;> rfl
  | succ i => cases y.getLsbD 0 <;> simp [hi, Nat.add_comm 1 i]

theorem gInv_g (y : Word) : gInv (g y) = y := by
  have hy := ushiftRight_one_shiftLeft_one_or_bit y
  rw [gInv, getLsbD_31_g, g]
  cases hbit : y.getLsbD 0 with
  | false =>
    rw [hbit] at hy
    simpa using hy
  | true =>
    rw [hbit] at hy
    simpa [BitVec.xor_assoc] using hy

/-- `g` is injective on a finite set, so its left inverse is a right inverse too. -/
theorem g_gInv (t : Word) : g (gInv t) = t := by
  obtain ⟨y, rfl⟩ := Finite.surjective_of_injective (Function.LeftInverse.injective gInv_g) t
  rw [gInv_g]

/-- Settles O20: `gInv_g` by bits, `g_gInv` from it. -/
theorem twistTransformIsInvertible : Obligations.TwistTransformIsInvertible :=
  fun y => ⟨gInv_g y, g_gInv y, getLsbD_31_g y⟩

/-! ## The two parts of a combination (R100) -/

@[simp] theorem combine_and_upper (a b : Word) : combine a b &&& Config.UPPER = a &&& Config.UPPER := by
  have hdisjoint : Config.LOWER &&& Config.UPPER = 0#32 := by decide
  rw [combine, BitVec.and_or_distrib_right, BitVec.and_assoc, BitVec.and_assoc, hdisjoint, BitVec.and_self, BitVec.and_zero,
    BitVec.or_zero]

@[simp] theorem combine_and_lower (a b : Word) : combine a b &&& Config.LOWER = b &&& Config.LOWER := by
  have hdisjoint : Config.UPPER &&& Config.LOWER = 0#32 := by decide
  rw [combine, BitVec.and_or_distrib_right, BitVec.and_assoc, BitVec.and_assoc, hdisjoint, BitVec.and_self, BitVec.and_zero,
    BitVec.zero_or]

@[simp] theorem combine_self (a : Word) : combine a a = a := by
  have hwhole : Config.UPPER ||| Config.LOWER = BitVec.allOnes 32 := by decide
  rw [combine, ← BitVec.and_or_distrib_left, hwhole, BitVec.and_allOnes]

theorem combine_congr {a a' b b' : Word} (hupper : a &&& Config.UPPER = a' &&& Config.UPPER)
    (hlower : b &&& Config.LOWER = b' &&& Config.LOWER) : combine a b = combine a' b' := by
  rw [combine, combine, hupper, hlower]

theorem eq_combine_iff (y a b : Word) :
    y = combine a b ↔ y &&& Config.UPPER = a &&& Config.UPPER ∧ y &&& Config.LOWER = b &&& Config.LOWER := by
  constructor
  · rintro rfl
    exact ⟨combine_and_upper a b, combine_and_lower a b⟩
  · rintro ⟨hupper, hlower⟩
    rw [← combine_congr hupper hlower, combine_self]

/-! ## What each step of a pass reads (R102, R105)

Of the array `S` before a twist and the array `T` after it a step reads the words of `S` followed by `T`, counted from its own:
the words ahead of it in the array are not yet rewritten, those behind it are. Untwist reads the same words of `U` followed by
`T`, with `U` the array after it and `T` the array before. -/

/-- The word `k` places on from word `i`, in the words of `S` followed by those of `T`. -/
def wordAhead (S T : StateArray) (i : Index) (k : Nat) : Word :=
  if i.val + k < 624 then readAt S (wrapAdd i k) else readAt T (wrapAdd i k)

theorem wordAhead_of_lt (S T : StateArray) {i : Index} {k : Nat} (h : i.val + k < 624) :
    wordAhead S T i k = readAt S (wrapAdd i k) := if_pos h

theorem wordAhead_of_ge (S T : StateArray) {i : Index} {k : Nat} (h : 624 ≤ i.val + k) :
    wordAhead S T i k = readAt T (wrapAdd i k) := if_neg (not_lt.2 h)

theorem wordAhead_last_397 (S T : StateArray) : wordAhead S T 623 397 = readAt T 396 := by
  rw [wordAhead_of_ge S T (by decide), show wrapAdd 623 397 = 396 by decide]

theorem wordAhead_last_1 (S T : StateArray) : wordAhead S T 623 1 = readAt T 0 := by
  rw [wordAhead_of_ge S T (by decide), show wrapAdd 623 1 = 0 by decide]

/-- The recurrence at word `i`, in the words of `S` followed by those of `T` (R102). -/
def RecurrenceAt (S T : StateArray) (i : Index) : Prop :=
  readAt T i = wordAhead S T i 397 ^^^ g (combine (readAt S i) (wordAhead S T i 1))

/-- The combination from which twist step `i` made its word of `T` out of `S` (R103). -/
def stepCombination (S T : StateArray) (i : Index) : Word := gInv (readAt T i ^^^ wordAhead S T i 397)

theorem recurrenceAt_iff_combination {S T : StateArray} {i : Index} :
    RecurrenceAt S T i ↔ stepCombination S T i = combine (readAt S i) (wordAhead S T i 1) := by
  constructor
  · intro h
    rw [stepCombination, h, BitVec.xor_comm (wordAhead _ _ _ _), BitVec.xor_assoc, BitVec.xor_self, BitVec.xor_zero, gInv_g]
  · intro h
    rw [RecurrenceAt, ← h, stepCombination, g_gInv, BitVec.xor_comm (readAt T i), ← BitVec.xor_assoc, BitVec.xor_self,
      BitVec.zero_xor]

/-- A step of the twist pass finds the words behind it rewritten. -/
theorem readAt_twistPass (S : StateArray) (i j : Index) :
    readAt (twistPass i.val S) j = if j.val < i.val then readAt (twist S) j else readAt S j := by
  split
  case isTrue h => rw [twist, readAt_twistPass_behind S i i.isLt.le j h, readAt_twistPass_behind S 624 le_rfl j j.isLt]
  case isFalse h => exact readAt_twistPass_ahead S i j (not_lt.1 h)

theorem readAt_twistPass_wrapAdd (S : StateArray) (i : Index) {k : Nat} (hk : k < 624) :
    readAt (twistPass i.val S) (wrapAdd i k) = wordAhead S (twist S) i k := by
  have hi := i.isLt
  have hwrapped : (wrapAdd i k).val < i.val ↔ ¬ i.val + k < 624 := by rw [wrapAdd_val]; omega
  simp only [readAt_twistPass, wordAhead, hwrapped, ite_not]

/-- Every step of the twist pass computes the recurrence (R102). -/
theorem recurrenceAt_twist (S : StateArray) (i : Index) : RecurrenceAt S (twist S) i := by
  have hlast : readAt (twist S) i = readAt (twistStep (twistPass i.val S) i) i := by
    rw [twist, readAt_twistPass_behind S 624 le_rfl i i.isLt, twistPass_succ, wrapAdd_zero_of_lt i.isLt]
  rw [RecurrenceAt, hlast, readAt_twistStep, if_pos rfl, readAt_twistPass_wrapAdd S i (by decide),
    readAt_twistPass_wrapAdd S i (by decide), readAt_twistPass_ahead S i i le_rfl]

/-- A step of the untwist pass finds the words above it rewritten. -/
theorem readAt_untwistPass (T : StateArray) (i j : Index) :
    readAt (untwistPass (623 - i.val) T) j = if i.val < j.val then readAt (untwist T) j else readAt T j := by
  have hi := i.isLt
  split
  case isTrue h =>
    rw [untwist, readAt_untwistPass_behind T (623 - i.val) (by omega) j (by omega),
      readAt_untwistPass_behind T 624 le_rfl j (by omega)]
  case isFalse h => exact readAt_untwistPass_ahead T _ j (by omega)

theorem readAt_untwist_eq_step (T : StateArray) (i : Index) :
    readAt (untwist T) i = readAt (untwistStep (untwistPass (623 - i.val) T) i) i := by
  have hi := i.isLt
  have hsucc : 624 - i.val = 623 - i.val + 1 := by omega
  have hindex : wrapAdd 0 (623 - (623 - i.val)) = i := by
    rw [wrapAdd_zero_of_lt (by omega)]
    exact Fin.ext (by simp only; omega)
  rw [untwist, readAt_untwistPass_behind T 624 le_rfl i (by omega), hsucc, untwistPass_succ, hindex]

theorem readAt_untwistPass_wrapAdd (T : StateArray) {i j : Index} (hij : i.val ≤ j.val + 1) (hji : j.val ≤ i.val) :
    readAt (untwistPass (623 - i.val) T) (wrapAdd j 397) = wordAhead (untwist T) T j 397 := by
  have hi := i.isLt
  have hahead : i.val < (wrapAdd j 397).val ↔ j.val + 397 < 624 := by rw [wrapAdd_val]; omega
  simp only [readAt_untwistPass, wordAhead, hahead]

theorem wrapPred_val_add_one {i : Index} (h : i ≠ 0) : (wrapPred i).val + 1 = i.val := by
  have hi := i.isLt
  have hpos : i.val ≠ 0 := Fin.val_ne_of_ne h
  rw [wrapPred_val]
  omega

/-- Every step of the untwist pass but the last takes its lower bits from the combination of the twist step before (R104). -/
theorem readAt_untwist {i : Index} (h : i ≠ 0) (T : StateArray) :
    readAt (untwist T) i =
      combine (stepCombination (untwist T) T i) (stepCombination (untwist T) T (wrapPred i)) := by
  have hi := i.isLt
  have hpred := wrapPred_val_add_one h
  rw [readAt_untwist_eq_step, readAt_untwistStep, if_pos rfl, readAt_untwistPass_wrapAdd T (by omega) le_rfl,
    readAt_untwistPass_wrapAdd T (by omega) (by omega), readAt_untwistPass_ahead T _ i (by omega),
    readAt_untwistPass_ahead T _ (wrapPred i) (by omega)]
  rfl

/-- The last step of the untwist pass takes its lower bits from two words that it has restored itself (R105). -/
theorem readAt_untwist_zero (T : StateArray) :
    readAt (untwist T) 0 =
      combine (stepCombination (untwist T) T 0) (gInv (readAt (untwist T) 623 ^^^ readAt (untwist T) 396)) := by
  have hrestored : ∀ j : Index, 0 < j.val → readAt (untwistPass (623 - (0 : Index).val) T) j = readAt (untwist T) j :=
    fun j hj => (readAt_untwistPass T 0 j).trans (if_pos hj)
  rw [readAt_untwist_eq_step, readAt_untwistStep, if_pos rfl, readAt_untwistPass_wrapAdd T (by decide) le_rfl,
    readAt_untwistPass_ahead T _ 0 (by decide), hrestored (wrapPred 0) (by decide),
    hrestored (wrapAdd (wrapPred 0) 397) (by decide)]
  rfl

/-! ## What twist reads determines its result (R102, R108) -/

/-- The words ahead of word `i` are words of `S` other than word 0, and words of `T` below word `i`. -/
theorem wordAhead_congr {S S' T T' : StateArray} {i : Index} (hS : ∀ j : Index, j ≠ 0 → readAt S' j = readAt S j)
    (hT : ∀ j < i, readAt T' j = readAt T j) {k : Nat} (hk0 : 0 < k) (hk : k < 624) :
    wordAhead S' T' i k = wordAhead S T i k := by
  have hi := i.isLt
  rcases Nat.lt_or_ge (i.val + k) 624 with hlt | hge
  · have hval : (wrapAdd i k).val = i.val + k := Nat.mod_eq_of_lt hlt
    have hne : wrapAdd i k ≠ 0 := Fin.ne_of_gt (by rw [Fin.lt_def, hval, Fin.val_zero]; omega)
    rw [wordAhead_of_lt _ _ hlt, wordAhead_of_lt _ _ hlt, hS _ hne]
  · have hbehind : wrapAdd i k < i := by rw [Fin.lt_def, wrapAdd_val]; omega
    rw [wordAhead_of_ge _ _ hge, wordAhead_of_ge _ _ hge, hT _ hbehind]

/-- The recurrence at the first `n` words determines these words from `S`, and of word 0 of `S` from bit 31 alone. -/
theorem readAt_eq_of_recurrenceAt {S S' T T' : StateArray} {n : Nat}
    (hwords : ∀ i : Index, i ≠ 0 → readAt S' i = readAt S i)
    (hupper : readAt S' 0 &&& Config.UPPER = readAt S 0 &&& Config.UPPER)
    (h : ∀ i : Index, i.val < n → RecurrenceAt S T i) (h' : ∀ i : Index, i.val < n → RecurrenceAt S' T' i) (i : Index)
    (hi : i.val < n) : readAt T' i = readAt T i := by
  induction i using WellFoundedLT.induction with
  | ind i ih =>
    have hbehind : ∀ j < i, readAt T' j = readAt T j := fun j hj => ih j hj (lt_trans hj hi)
    have hown : readAt S' i &&& Config.UPPER = readAt S i &&& Config.UPPER := by
      by_cases h0 : i = 0
      · rw [h0, hupper]
      · rw [hwords i h0]
    rw [h i hi, h' i hi, wordAhead_congr hwords hbehind (by decide) (by decide),
      wordAhead_congr hwords hbehind (by decide) (by decide), combine_congr hown rfl]

theorem twist_eq_of_recurrenceAt {S T : StateArray} (h : ∀ i, RecurrenceAt S T i) : twist S = T :=
  stateArray_ext fun i =>
    readAt_eq_of_recurrenceAt (n := 624) (fun _ _ => rfl) rfl (fun i _ => h i) (fun i _ => recurrenceAt_twist S i) i i.isLt

/-- Bits 30..0 of word 0 are read by no step (R102, R108). -/
theorem twist_eq_of_upper {S S' : StateArray} (hwords : ∀ i : Index, i ≠ 0 → readAt S' i = readAt S i)
    (hupper : readAt S' 0 &&& Config.UPPER = readAt S 0 &&& Config.UPPER) : twist S' = twist S :=
  stateArray_ext fun i => readAt_eq_of_recurrenceAt (n := 624) hwords hupper (fun i _ => recurrenceAt_twist S i)
    (fun i _ => recurrenceAt_twist S' i) i i.isLt

theorem twist_writeAt_zero {S : StateArray} {v : Word} (h : v &&& Config.UPPER = readAt S 0 &&& Config.UPPER) :
    twist (writeAt S 0 v) = twist S :=
  twist_eq_of_upper (fun _ hi => readAt_writeAt_ne S v hi) (by rw [readAt_writeAt_same, h])

/-! ## The tables of R102 and R105 -/

section
variable {x : Int → Word} {n : Int} {S T : StateArray} (hS : HoldsWindow x n S) (hT : HoldsWindow x (n + 624) T)
include hS hT

theorem wordAhead_eq_of_holdsWindow (i : Index) {k : Nat} (hk : k < 624) :
    wordAhead S T i k = x (n + (i.val : Int) + (k : Int)) := by
  have hi := i.isLt
  unfold wordAhead
  split
  · rw [hS, wrapAdd_val]
    exact congrArg x (by omega)
  · rw [hT, wrapAdd_val]
    exact congrArg x (by omega)

theorem recurrenceAt_iff_of_holdsWindow (i : Index) :
    RecurrenceAt S T i ↔
      x (n + i.val + 624) = x (n + i.val + 397) ^^^ g (combine (x (n + i.val)) (x (n + i.val + 1))) := by
  have hnext : n + 624 + (i.val : Int) = n + i.val + 624 := by omega
  rw [RecurrenceAt, wordAhead_eq_of_holdsWindow hS hT i (by decide), wordAhead_eq_of_holdsWindow hS hT i (by decide), hS, hT,
    hnext]
  rfl

end

/-- Settles O21: the table and the recurrence are `recurrenceAt_twist`, read in the array or in the sequence. -/
theorem twistReadsTheStatedValues : Obligations.TwistReadsTheStatedValues := by
  intro S
  have hstep : ∀ i, RecurrenceAt S (twist S) i := recurrenceAt_twist S
  refine ⟨?first, ?middle, ?last, ?recurrence, fun v hv => twist_writeAt_zero hv⟩
  case first =>
    intro i hi
    rw [hstep i, wordAhead_of_lt _ _ (by omega), wordAhead_of_lt _ _ (by omega)]
  case middle =>
    intro i hi hi'
    rw [hstep i, wordAhead_of_ge _ _ (by omega), wordAhead_of_lt _ _ (by omega)]
  case last =>
    rw [hstep 623, wordAhead_last_397, wordAhead_last_1]
  case recurrence =>
    intro x k hS hT j hj hj'
    have hlt : (j - k).toNat < 624 := by omega
    have hindex : k + ((j - k).toNat : Int) = j := by omega
    have hrecurrence := (recurrenceAt_iff_of_holdsWindow hS hT ⟨(j - k).toNat, hlt⟩).1 (hstep _)
    simpa only [hindex] using hrecurrence

/-- Settles O22: `readAt_untwist` and `readAt_untwist_zero`, with the words ahead told apart as old or restored. -/
theorem untwistReadsTheStatedValues : Obligations.UntwistReadsTheStatedValues := by
  intro T
  refine ⟨?above, ?crossing, ?below, ?last⟩
  case above =>
    intro i hi
    have hne : i ≠ 0 := Fin.ne_of_gt (Nat.lt_of_lt_of_le (by decide) hi)
    have hpred := wrapPred_val_add_one hne
    rw [readAt_untwist hne, stepCombination, stepCombination, wordAhead_of_ge _ _ (by omega),
      wordAhead_of_ge _ _ (by omega), combine]
  case crossing =>
    rw [readAt_untwist (by decide), show wrapPred 227 = 226 by decide, stepCombination, stepCombination,
      wordAhead_of_ge _ _ (by decide), wordAhead_of_lt _ _ (by decide), show wrapAdd 227 397 = 0 by decide,
      show wrapAdd 226 397 = 623 by decide, combine]
  case below =>
    intro i hi hi'
    have hne : i ≠ 0 := Fin.ne_of_gt (Nat.lt_of_lt_of_le (by decide) hi)
    have hpred := wrapPred_val_add_one hne
    rw [readAt_untwist hne, stepCombination, stepCombination, wordAhead_of_lt _ _ (by omega),
      wordAhead_of_lt _ _ (by omega), combine]
  case last =>
    rw [readAt_untwist_zero, stepCombination, wordAhead_of_lt _ _ (by decide), show wrapAdd 0 397 = 397 by decide, combine]

/-! ## The inverse laws (R106, R107) -/

/-- `Valid` is the lower half of the recurrence at the last word. -/
theorem valid_iff_stepCombination_last (S T : StateArray) :
    Valid T ↔ stepCombination S T 623 &&& Config.LOWER = wordAhead S T 623 1 &&& Config.LOWER := by
  rw [stepCombination, wordAhead_last_397, wordAhead_last_1]

theorem valid_of_recurrenceAt_last {S T : StateArray} (h : RecurrenceAt S T 623) : Valid T := by
  rw [valid_iff_stepCombination_last S, recurrenceAt_iff_combination.1 h, combine_and_lower]

theorem valid_twist (S : StateArray) : Valid (twist S) := valid_of_recurrenceAt_last (recurrenceAt_twist S 623)

theorem valid_untwist (S : StateArray) : Valid (untwist S) := by
  rw [Valid, readAt_untwist_zero S, combine_and_lower]

/-- Settles O23: by the last step of either pass. -/
theorem twistAndUntwistGiveValidArrays : Obligations.TwistAndUntwistGiveValidArrays :=
  fun S => ⟨valid_twist S, valid_untwist S⟩

theorem upper_stepCombination_untwist (T : StateArray) (i : Index) :
    stepCombination (untwist T) T i &&& Config.UPPER = readAt (untwist T) i &&& Config.UPPER := by
  by_cases h : i = 0
  · rw [h, readAt_untwist_zero, combine_and_upper]
  · rw [readAt_untwist h, combine_and_upper]

/-- Untwist undoes every step of twist but the last, of which it restores bit 31 only: the lower bits of the last combination
are those of word 0 of `T`, and the array restored does not hold them. -/
theorem recurrenceAt_untwist (T : StateArray) {i : Index} (h : i ≠ 623) : RecurrenceAt (untwist T) T i := by
  have hlt : i.val + 1 < 624 := by
    have hi := i.isLt
    have hval : i.val ≠ 623 := Fin.val_ne_of_ne h
    omega
  have hne : wrapAdd i 1 ≠ 0 := mt (wrapAdd_one_eq_zero_iff i).1 hlt.ne
  rw [recurrenceAt_iff_combination, eq_combine_iff, wordAhead_of_lt _ _ hlt, readAt_untwist hne, wrapPred_wrapAdd_one,
    combine_and_lower]
  exact ⟨upper_stepCombination_untwist T i, rfl⟩

/-- Where `T` is Valid those lower bits are the ones that word 623 of `T` was made from. -/
theorem recurrenceAt_untwist_last {T : StateArray} (h : Valid T) : RecurrenceAt (untwist T) T 623 :=
  recurrenceAt_iff_combination.2 ((eq_combine_iff _ _ _).2
    ⟨upper_stepCombination_untwist T 623, (valid_iff_stepCombination_last _ T).1 h⟩)

theorem twist_untwist {S : StateArray} (h : Valid S) : twist (untwist S) = S := by
  apply twist_eq_of_recurrenceAt
  intro i
  by_cases hlast : i = 623
  · exact hlast ▸ recurrenceAt_untwist_last h
  · exact recurrenceAt_untwist S hlast

theorem readAt_twist_untwist (S : StateArray) {i : Index} (h : i ≠ 623) : readAt (twist (untwist S)) i = readAt S i :=
  readAt_eq_of_recurrenceAt (n := 623) (fun _ _ => rfl) rfl (fun _ hj => recurrenceAt_untwist S (Fin.ne_of_lt hj))
    (fun j _ => recurrenceAt_twist (untwist S) j) i (lt_of_le_of_ne (Fin.le_last i) (Fin.val_ne_of_ne h))

/-- Settles O25: twist recomputes every word but the last from `untwist S`; a Valid result would restore that one too. -/
theorem twistAfterUntwistRestoresExactlyValidArrays : Obligations.TwistAfterUntwistRestoresExactlyValidArrays := by
  intro S
  refine ⟨⟨fun h => h ▸ valid_twist (untwist S), twist_untwist⟩,
    fun hvalid => ⟨fun i hi => readAt_twist_untwist S hi, fun hlast => ?_⟩⟩
  have hrestored : twist (untwist S) = S := stateArray_ext fun i => by
    by_cases hi : i = 623
    · rw [hi, hlast]
    · exact readAt_twist_untwist S hi
  exact hvalid (hrestored ▸ valid_twist (untwist S))

theorem finite_validArrays : {S : StateArray | Valid S}.Finite := by
  have : Finite StateArray := Finite.of_injective readAt fun S T h => stateArray_ext (congrFun h)
  exact Set.toFinite _

/-- Untwist is injective on the Valid arrays, since twist undoes it there, and they are finitely many. -/
theorem bijOn_untwist : Set.BijOn untwist {S | Valid S} {S | Valid S} :=
  (finite_validArrays.injOn_iff_bijOn_of_mapsTo fun S _ => valid_untwist S).1
    (Set.LeftInvOn.injOn fun _ h => twist_untwist h)

theorem untwist_twist {S : StateArray} (h : Valid S) : untwist (twist S) = S := by
  obtain ⟨R, hR, rfl⟩ := bijOn_untwist.surjOn h
  rw [twist_untwist hR]

/-- Settles O26: `untwist_twist` and `twist_untwist` on the Valid arrays. -/
theorem twistAndUntwistAreInverseOnValidArrays : Obligations.TwistAndUntwistAreInverseOnValidArrays := by
  have hinv : Set.InvOn untwist twist {S | Valid S} {S | Valid S} := ⟨fun _ => untwist_twist, fun _ => twist_untwist⟩
  exact ⟨hinv.bijOn (fun S _ => valid_twist S) (fun S _ => valid_untwist S), bijOn_untwist, hinv⟩

/-- The Valid array with the twist of `S`: `S` with bits 30..0 of word 0 as the combination of twist step 623 has them. -/
def validated (S : StateArray) : StateArray :=
  writeAt S 0 (combine (readAt S 0) (gInv (readAt S 623 ^^^ readAt S 396)))

theorem valid_validated (S : StateArray) : Valid (validated S) := by
  rw [Valid, validated, readAt_writeAt_same, combine_and_lower, readAt_writeAt_ne _ _ (by decide),
    readAt_writeAt_ne _ _ (by decide)]

theorem untwist_twist_eq_validated (S : StateArray) : untwist (twist S) = validated S := by
  rw [← untwist_twist (valid_validated S), validated, twist_writeAt_zero (combine_and_upper _ _)]

/-- Settles O24: `untwist (twist S)` is `validated S`. -/
theorem untwistAfterTwistRestoresExactlyValidArrays : Obligations.UntwistAfterTwistRestoresExactlyValidArrays := by
  intro S
  refine ⟨⟨fun h => h ▸ valid_untwist (twist S), untwist_twist⟩, fun hvalid => ?_⟩
  rw [untwist_twist_eq_validated, validated, readAt_writeAt_same, combine_and_upper, combine_and_lower]
  exact ⟨fun i hi => readAt_writeAt_ne _ _ hi, rfl, hvalid⟩

/-! ## The all-zero array (R108, R110, R111) -/

theorem twist_zeros : twist (Vector.replicate 624 0) = Vector.replicate 624 0 := by
  apply twist_eq_of_recurrenceAt
  intro i
  have hg : (0 : Word) = 0 ^^^ g (combine 0 0) := by decide
  simpa only [RecurrenceAt, wordAhead, readAt_replicate, ite_self] using hg

theorem valid_replicate_zero : Valid (Vector.replicate 624 0) := by
  rw [← twist_zeros]
  exact valid_twist _

theorem untwist_zeros : untwist (Vector.replicate 624 0) = Vector.replicate 624 0 := by
  conv_lhs => rw [← twist_zeros]
  exact untwist_twist valid_replicate_zero

/-- Settles O27: the pass reads word 0 in bit 31 alone. -/
theorem twistIsNotInjective : Obligations.TwistIsNotInjective := by
  refine ⟨fun S S' => twist_eq_of_upper, twist_zeros, ?sameTwist, ?notValid, untwist_zeros⟩
  case sameTwist =>
    rw [twist_writeAt_zero (by rw [readAt_replicate]; decide), twist_zeros]
  case notValid =>
    rw [Valid, readAt_writeAt_same, readAt_writeAt_ne _ _ (by decide), readAt_writeAt_ne _ _ (by decide),
      readAt_replicate, readAt_replicate]
    decide

/-! ## TWIST and UNTWIST (R110, R111) -/

/-- Settles O29: the commands' specs, the all-zero array, and O24 for the state's array. -/
theorem twistAndUntwistCommandsDriveTheDatapath : Obligations.TwistAndUntwistCommandsDriveTheDatapath := by
  intro s
  refine ⟨execTwist_spec s, execUntwist_spec s, ?zeros, _, rfl, ?restores⟩
  case zeros =>
    intro h
    have hzeros : s.words = Vector.replicate 624 0 := stateArray_ext fun i => (h i).trans (readAt_replicate 0 i).symm
    rw [hzeros]
    exact ⟨twist_zeros, untwist_zeros⟩
  case restores =>
    obtain ⟨hiff, -⟩ := untwistAfterTwistRestoresExactlyValidArrays s.words
    exact hiff

/-! ## Windows of one generator (R109) -/

/-- The 624 words of a sequence that begin at `n`, as an array. -/
def windowAt (x : Int → Word) (n : Int) : StateArray := Vector.ofFn fun i => x (n + (i.val : Int))

theorem holdsWindow_windowAt (x : Int → Word) (n : Int) : HoldsWindow x n (windowAt x n) := by
  intro i
  simp [readAt, windowAt]

theorem holdsWindow_iff {x : Int → Word} {n : Int} {S : StateArray} : HoldsWindow x n S ↔ S = windowAt x n := by
  constructor
  · exact fun h => stateArray_ext fun i => (h i).trans (holdsWindow_windowAt x n i).symm
  · rintro rfl
    exact holdsWindow_windowAt x n

section
variable {x : Int → Word} (hx : Recurrence x)
include hx

theorem twist_windowAt (n : Int) : twist (windowAt x n) = windowAt x (n + 624) :=
  twist_eq_of_recurrenceAt fun i =>
    (recurrenceAt_iff_of_holdsWindow (holdsWindow_windowAt x n) (holdsWindow_windowAt x (n + 624)) i).2 (hx _)

theorem valid_windowAt (n : Int) : Valid (windowAt x n) := by
  rw [← Int.sub_add_cancel n 624, ← twist_windowAt hx]
  exact valid_twist _

theorem untwist_windowAt (n : Int) : untwist (windowAt x n) = windowAt x (n - 624) := by
  have htwist := twist_windowAt hx (n - 624)
  rw [Int.sub_add_cancel] at htwist
  rw [← htwist, untwist_twist (valid_windowAt hx (n - 624))]

end

/-- NEXT, PREV and a verifying ABSORB keep the array or pass it through the datapath. -/
theorem valid_nextWords {i : Instr} {s : State} (hvalid : Valid s.words) (hr : s.ready = true)
    (hi : i = .next ∨ i = .prev ∨ (s.verify = true ∧ ∃ raw, i = .absorb raw)) : Valid (nextWords i s) := by
  have hgeneration : Valid (generationRead s) := by
    unfold generationRead
    split
    · exact valid_twist _
    · exact hvalid
  obtain rfl | rfl | ⟨hv, raw, rfl⟩ := hi
  · rwa [nextWords, if_pos hr]
  · rw [nextWords]
    split
    · exact valid_untwist _
    · exact hvalid
  · rwa [nextWords_absorb_of_verifying hr hv]

theorem runCommands_predicting {is : List Instr} {s : State} (h : Predicting s)
    (his : ∀ i ∈ is, i = .next ∨ i = .prev ∨ (s.verify = true ∧ ∃ raw, i = .absorb raw)) :
    ∃ t, runCommands is s = .next t ∧ Predicting t := by
  induction is generalizing s with
  | nil => exact ⟨s, rfl, h⟩
  | cons i is ih =>
    obtain ⟨hr, hvalid⟩ := h
    obtain ⟨hi, his⟩ := List.forall_mem_cons.1 his
    rw [runCommands_cons]
    exact ih ⟨nextReady_of_ready hr i, valid_nextWords hvalid hr hi⟩ his

/-- No command writes `verify` (10_state.md R24). -/
theorem verify_of_runCommands {is : List Instr} {s t : State} (h : runCommands is s = .next t) : t.verify = s.verify := by
  induction is generalizing s with
  | nil => rw [Host.Outcome.next.inj h]
  | cons i is ih =>
    rw [runCommands_cons] at h
    rw [ih h, afterCommand_verify]

/-- Absorbed from reset, 624 consecutive outputs leave their window of the sequence, and the machine ready. -/
theorem runCommands_absorb_outputs (x : Int → Word) (n : Int) (v : Bool) :
    ∃ t, runCommands ((List.range 624).map (fun (k : Nat) => Instr.absorb (temper (x (n + (k : Int)))))) (State.resetWith v) =
      .next t ∧ t.words = windowAt x n ∧ t.ready = true := by
  obtain ⟨⟨t, hrun, hwords, -, hr⟩, -⟩ := sixHundredTwentyFourAbsorbsFillTheArray v ((windowAt x n).map temper)
  have hcommands : ((windowAt x n).map temper).toList.map Instr.absorb =
      (List.range 624).map (fun (k : Nat) => Instr.absorb (temper (x (n + (k : Int))))) := by
    apply List.ext_getElem
    · simp
    · intro k hk hk'
      simp [windowAt]
  refine ⟨t, hcommands ▸ hrun, stateArray_ext fun i => ?_, hr⟩
  rw [hwords, Vector.getElem_map, untemper_temper]
  rfl

/-- Settles O28: windows move by `twist_windowAt` and `untwist_windowAt`; a run from one keeps `Predicting`. -/
theorem windowsOfOneGeneratorAreValidAndTwistMovesThem : Obligations.WindowsOfOneGeneratorAreValidAndTwistMovesThem := by
  constructor
  case left =>
    intro x k S hx hS
    obtain rfl := holdsWindow_iff.1 hS
    exact ⟨valid_windowAt hx k, holdsWindow_iff.2 (twist_windowAt hx k), holdsWindow_iff.2 (untwist_windowAt hx k)⟩
  case right =>
    intro x k v is hx his
    obtain ⟨s, hrun, hwords, hr⟩ := runCommands_absorb_outputs x k v
    have hpredicting : Predicting s := ⟨hr, hwords ▸ valid_windowAt hx k⟩
    have hv : s.verify = v := verify_of_runCommands hrun
    obtain ⟨t, hruns, ht⟩ := runCommands_predicting hpredicting (hv ▸ his)
    exact ⟨t, (runCommands_append hrun is).trans hruns, ht.valid⟩

end Sys2Proof.Machine

/-! # The temper / untemper pipeline (42_temper.md) -/

namespace Sys2Proof.Machine

/-! ## What `untemper` undoes also undoes it (R122, R123) -/

/-- What is undone is injective, on finitely many words so surjective too: it also undoes what undoes it. -/
theorem rightInverse_of_leftInverse {f g : Word → Word} (h : Function.LeftInverse g f) : Function.RightInverse g f :=
  h.rightInverse_of_surjective (Finite.surjective_of_injective h.injective)

theorem inverse_both_ways {f g : Word → Word} (h : Function.LeftInverse g f) (y : Word) : g (f y) = y ∧ f (g y) = y :=
  ⟨h y, rightInverse_of_leftInverse h y⟩

/-- Settles O31: each line after its stage moves its error out of the word, each stage after its line by finiteness. -/
theorem eachUntemperStageInvertsItsTemperStage : Obligations.EachUntemperStageInvertsItsTemperStage := fun y =>
  ⟨inverse_both_ways untemperStage4_temperStage4 y, inverse_both_ways untemperStage3_temperStage3 y,
    inverse_both_ways untemperStage2_temperStage2 y, inverse_both_ways untemperStage1_temperStage1 y⟩

theorem temper_untemper (y : Word) : temper (untemper y) = y := rightInverse_of_leftInverse untemper_temper y

/-- Settles O30: each pipeline has the other as its two-sided inverse, so both are bijective. -/
theorem temperAndUntemperAreInverse : Obligations.TemperAndUntemperAreInverse :=
  ⟨inverse_both_ways untemper_temper,
    Function.bijective_iff_has_inverse.2 ⟨untemper, untemper_temper, temper_untemper⟩,
    Function.bijective_iff_has_inverse.2 ⟨temper, temper_untemper, untemper_temper⟩⟩

/-! ## The commands TEMPER and UNTEMPER (R124, R125) -/

theorem exec_temper_eq_update (y : Word) (s : State) :
    exec (.temper y) s = .next { s with responses := s.responses ++ [⟨.ok, temper y⟩] } := by
  rw [exec_temper, execTemper, State.respond]

theorem exec_untemper_eq_update (y : Word) (s : State) :
    exec (.untemper y) s = .next { s with responses := s.responses ++ [⟨.ok, untemper y⟩] } := by
  rw [exec_untemper, execUntemper, State.respond]

/-- UNTEMPER of a TEMPER result responds with the TEMPER operand, whatever state it runs in. -/
theorem responseTo_untemper_temper (y : Word) (t : State) : responseTo (.untemper (temper y)) t = ⟨.ok, y⟩ := by
  rw [responseTo, untemper_temper]

/-- Settles O32: the responses by `respond`, the round trip by `untemper_temper`, the corner values by evaluation. -/
theorem temperAndUntemperCommandsAnswerTheirWord : Obligations.TemperAndUntemperCommandsAnswerTheirWord := by
  refine ⟨fun y s => ⟨exec_temper_eq_update y s, exec_untemper_eq_update y s, ?roundTrip⟩, ?cornerValues⟩
  case roundTrip =>
    exact ⟨_, _, temper y, exec_eq _ s, afterCommand_answers _ s, exec_eq _ _,
      responseTo_untemper_temper y (afterCommand (.temper y) s) ▸ afterCommand_answers _ _⟩
  case cornerValues => decide

end Sys2Proof.Machine

/-! # The word engine (43_word_engine.md) -/

namespace Sys2Proof.Machine

/-! ## NEXT and PREV after readiness (R140 to R144) -/

theorem generationRead_of_cursor_eq_zero {s : State} (h : s.cursor = 0) : generationRead s = twist s.words := if_pos h

theorem generationRead_of_cursor_ne_zero {s : State} (h : s.cursor ≠ 0) : generationRead s = s.words := if_neg h

theorem wrapAdd_one_eq_one_iff (c : Index) : wrapAdd c 1 = 1 ↔ c = 0 := by
  rw [← wrapPred_eq_zero_iff, wrapPred_wrapAdd_one]

section
variable {s : State} (hr : s.ready = true)
include hr

theorem ready_afterCommand (i : Instr) : (afterCommand i s).ready = true := nextReady_of_ready hr i

theorem nextWords_next_of_ready : nextWords .next s = generationRead s := if_pos hr

theorem nextCursor_next_of_ready : nextCursor .next s = wrapAdd s.cursor 1 := if_pos hr

theorem nextWords_prev_of_ready : nextWords .prev s = if s.cursor = 1 then untwist s.words else s.words := by
  simp [nextWords, hr, wrapPred_eq_zero_iff]

theorem nextCursor_prev_of_ready : nextCursor .prev s = wrapPred s.cursor := if_pos hr

theorem responseTo_prev_of_ready : responseTo .prev s = ⟨.ok, temper (readAt s.words (wrapPred s.cursor))⟩ := if_pos hr

theorem answers_next_of_ready : Answers s (afterCommand .next s) ⟨.ok, predictedWord s⟩ :=
  responseTo_next_of_ready hr ▸ afterCommand_answers .next s

theorem answers_prev_of_ready :
    Answers s (afterCommand .prev s) ⟨.ok, temper (readAt s.words (wrapPred s.cursor))⟩ :=
  responseTo_prev_of_ready hr ▸ afterCommand_answers .prev s

end

/-- Settles O33: a forward step reads `generationRead`, a backward one the word below the cursor, and untwists at cursor 1. -/
theorem nextAndPrevFollowTheCrossingTable : Obligations.NextAndPrevFollowTheCrossingTable := by
  intro s hr
  constructor
  case left =>
    refine ⟨_, _, exec_eq .next s, answers_next_of_ready hr, ready_afterCommand hr .next, rfl, ?crossing, ?inside, ?last⟩
    all_goals
      rw [afterCommand_words, afterCommand_cursor, nextWords_next_of_ready hr, nextCursor_next_of_ready hr, wrapAdd_val,
        predictedWord_eq]
    case crossing =>
      intro hc
      have hzero : s.cursor = 0 := Fin.ext hc
      rw [generationRead_of_cursor_eq_zero hzero, hzero]
      exact ⟨rfl, rfl, rfl⟩
    case inside =>
      intro hlow hhigh
      rw [generationRead_of_cursor_ne_zero (Fin.ne_of_val_ne (Nat.ne_of_gt hlow))]
      exact ⟨rfl, rfl, by omega⟩
    case last =>
      intro hc
      have hlast : s.cursor = 623 := Fin.ext hc
      rw [generationRead_of_cursor_ne_zero (by rw [hlast]; decide), hlast]
      exact ⟨rfl, rfl, rfl⟩
  case right =>
    refine ⟨_, _, exec_eq .prev s, answers_prev_of_ready hr, ready_afterCommand hr .prev, rfl, ?last, ?crossing, ?inside⟩
    all_goals
      rw [afterCommand_words, afterCommand_cursor, nextWords_prev_of_ready hr, nextCursor_prev_of_ready hr]
    case last =>
      intro hc
      rw [show s.cursor = 0 from Fin.ext hc]
      exact ⟨rfl, rfl, rfl⟩
    case crossing =>
      intro hc
      rw [show s.cursor = 1 from Fin.ext hc]
      exact ⟨rfl, rfl, rfl⟩
    case inside =>
      intro hlow
      have hlt := s.cursor.isLt
      have hne : s.cursor ≠ 1 := Fin.ne_of_val_ne (Nat.ne_of_gt hlow)
      rw [if_neg hne, wrapPred_val]
      exact ⟨rfl, rfl, by omega⟩

/-! ## `Valid` is kept (R146) -/

/-- An ABSORB that stores the word that is there leaves the array NEXT would, as every verifying ABSORB does. -/
theorem nextWords_absorb_of_continuation {s : State} (hr : s.ready = true) {raw : Word}
    (h : s.verify = true ∨ untemper raw = readAt (generationRead s) s.cursor) :
    nextWords (.absorb raw) s = generationRead s := by
  cases hv : s.verify with
  | true => exact nextWords_absorb_of_verifying hr hv raw
  | false =>
    have hstored := h.resolve_left (by simp [hv])
    rw [nextWords_absorb_of_storing hr hv, hstored, writeAt_readAt]

theorem valid_nextWords_next_or_prev {i : Instr} {s : State} (hvalid : Valid s.words) (hi : i = .next ∨ i = .prev) :
    Valid (nextWords i s) := by
  cases hr : s.ready with
  | true => exact valid_nextWords hvalid hr (hi.imp_right .inl)
  | false => obtain rfl | rfl := hi <;> simpa [nextWords, hr] using hvalid

/-- Settles O37, command by command; such an ABSORB leaves the array that NEXT leaves. -/
theorem validityIsKeptUnlessAbsorbStoresAnotherWord : Obligations.ValidityIsKeptUnlessAbsorbStoresAnotherWord := by
  intro i s hvalid habsorb
  refine ⟨_, exec_eq i s, ?_⟩
  rw [afterCommand_words]
  cases i with
  | absorb raw =>
    obtain ⟨hr, hcontinues⟩ := habsorb raw rfl
    rw [nextWords_absorb_of_continuation hr hcontinues, ← nextWords_next_of_ready hr]
    exact valid_nextWords_next_or_prev hvalid (.inl rfl)
  | twist => exact valid_twist s.words
  | untwist => exact valid_untwist s.words
  | next => exact valid_nextWords_next_or_prev hvalid (.inl rfl)
  | prev => exact valid_nextWords_next_or_prev hvalid (.inr rfl)
  | _ => exact hvalid

/-! ## NEXT and PREV undo each other (R145, R146, R148) -/

/-- NEXT and PREV meet in the same generation: a crossing forward is crossed back. -/
theorem nextWords_prev_afterCommand_next {s : State} (hr : s.ready = true) :
    nextWords .prev (afterCommand .next s) = if s.cursor = 0 then untwist (twist s.words) else s.words := by
  rw [nextWords_prev_of_ready (ready_afterCommand hr .next), afterCommand_words, afterCommand_cursor,
    nextWords_next_of_ready hr, nextCursor_next_of_ready hr]
  simp only [wrapAdd_one_eq_one_iff]
  split
  case isTrue hzero => rw [generationRead_of_cursor_eq_zero hzero]
  case isFalse hne => rw [generationRead_of_cursor_ne_zero hne]

theorem generationRead_afterCommand_prev {s : State} (hr : s.ready = true) :
    generationRead (afterCommand .prev s) = if s.cursor = 1 then twist (untwist s.words) else s.words := by
  rw [generationRead, afterCommand_words, afterCommand_cursor, nextWords_prev_of_ready hr, nextCursor_prev_of_ready hr]
  simp only [wrapPred_eq_zero_iff]
  split <;> rfl

theorem nextCursor_prev_afterCommand_next {s : State} (hr : s.ready = true) :
    nextCursor .prev (afterCommand .next s) = s.cursor := by
  rw [nextCursor_prev_of_ready (ready_afterCommand hr .next), afterCommand_cursor, nextCursor_next_of_ready hr,
    wrapPred_wrapAdd_one]

theorem nextCursor_next_afterCommand_prev {s : State} (hr : s.ready = true) :
    nextCursor .next (afterCommand .prev s) = s.cursor := by
  rw [nextCursor_next_of_ready (ready_afterCommand hr .prev), afterCommand_cursor, nextCursor_prev_of_ready hr,
    wrapAdd_one_wrapPred]

theorem responseTo_prev_afterCommand_next {s : State} (hr : s.ready = true) :
    responseTo .prev (afterCommand .next s) = responseTo .next s := by
  rw [responseTo_prev_of_ready (ready_afterCommand hr .next), responseTo_next_of_ready hr, predictedWord_eq,
    afterCommand_words, afterCommand_cursor, nextWords_next_of_ready hr, nextCursor_next_of_ready hr, wrapPred_wrapAdd_one]

/-- Command `j` undoes command `i` from `s`, with the response of `i`, and `i` leaves a state that is `Predicting`. -/
structure Undoes (j i : Instr) (s : State) : Prop where
  predicting : Predicting (afterCommand i s)
  response   : responseTo j (afterCommand i s) = responseTo i s
  block      : SameBlock s (afterCommand j (afterCommand i s))

theorem prev_undoes_next {s : State} (h : Predicting s) : Undoes .prev .next s := by
  obtain ⟨hr, hvalid⟩ := h
  refine ⟨⟨ready_afterCommand hr .next, valid_nextWords_next_or_prev hvalid (.inl rfl)⟩,
    responseTo_prev_afterCommand_next hr, ?words, nextCursor_prev_afterCommand_next hr, rfl, rfl⟩
  rw [afterCommand_words, nextWords_prev_afterCommand_next hr, untwist_twist hvalid, ite_self]

theorem next_undoes_prev {s : State} (h : Predicting s) : Undoes .next .prev s := by
  obtain ⟨hr, hvalid⟩ := h
  have hstill : (afterCommand .prev s).ready = true := ready_afterCommand hr .prev
  have hgeneration : generationRead (afterCommand .prev s) = s.words := by
    rw [generationRead_afterCommand_prev hr, twist_untwist hvalid, ite_self]
  refine ⟨⟨hstill, valid_nextWords_next_or_prev hvalid (.inr rfl)⟩, ?response,
    (nextWords_next_of_ready hstill).trans hgeneration, nextCursor_next_afterCommand_prev hr, rfl, rfl⟩
  rw [responseTo_next_of_ready hstill, predictedWord_eq, hgeneration, afterCommand_cursor, nextCursor_prev_of_ready hr,
    responseTo_prev_of_ready hr]

theorem exec_both_of_undoes {i j : Instr} {s : State} (h : Undoes j i s) {w : Word} (hok : responseTo i s = ⟨.ok, w⟩) :
    ∃ t u w, exec i s = .next t ∧ exec j t = .next u ∧ Answers s t ⟨.ok, w⟩ ∧ Answers t u ⟨.ok, w⟩ ∧ SameBlock s u :=
  ⟨_, _, w, exec_eq i s, exec_eq j _, hok ▸ afterCommand_answers i s, h.response.trans hok ▸ afterCommand_answers j _,
    h.block⟩

/-- Settles O35, by `prev_undoes_next`. -/
theorem nextThenPrevIsTheIdentity : Obligations.NextThenPrevIsTheIdentity :=
  fun _ h => exec_both_of_undoes (prev_undoes_next h) (responseTo_next_of_ready h.ready)

/-- Settles O36, by `next_undoes_prev`. -/
theorem prevThenNextIsTheIdentity : Obligations.PrevThenNextIsTheIdentity :=
  fun _ h => exec_both_of_undoes (next_undoes_prev h) (responseTo_prev_of_ready h.ready)

/-- Settles O40: the array left is `untwist (twist S)`, for which O24 says what is lost. -/
theorem offValidNextThenPrevLosesWordZero : Obligations.OffValidNextThenPrevLosesWordZero := by
  intro s hr hc hvalid
  obtain ⟨-, hlost⟩ := untwistAfterTwistRestoresExactlyValidArrays s.words
  refine ⟨_, _, exec_eq .next s, exec_eq .prev _, (nextCursor_prev_afterCommand_next hr).trans hc, ?_⟩
  rw [afterCommand_words, nextWords_prev_afterCommand_next hr, if_pos hc]
  exact hlost hvalid

/-- Settles O58: the array left is `twist (untwist S)`, for which O25 says what is lost. -/
theorem offValidPrevThenNextLosesLastWord : Obligations.OffValidPrevThenNextLosesLastWord := by
  intro s hr hc hvalid
  obtain ⟨-, hlost⟩ := twistAfterUntwistRestoresExactlyValidArrays s.words
  refine ⟨_, _, exec_eq .prev s, exec_eq .next _, (nextCursor_next_afterCommand_prev hr).trans hc, ?_⟩
  rw [afterCommand_words, nextWords_next_of_ready (ready_afterCommand hr .prev), generationRead_afterCommand_prev hr,
    if_pos hc]
  exact hlost hvalid

/-! ## Runs of NEXT and of PREV (R142, R149) -/

/-- `k` times `i` and then `k` times `j`: the last `i` is undone first. -/
theorem runCommands_replicate_undoes {i j : Instr} (h : ∀ s, Predicting s → Undoes j i s) (k : Nat) {s : State}
    (hs : Predicting s) :
    ∃ t u ws, runCommands (List.replicate k i) s = .next t ∧ runCommands (List.replicate k j) t = .next u ∧
      ws.length = k ∧ t.responses = s.responses ++ ws ∧ u.responses = t.responses ++ ws.reverse ∧ SameBlock s u := by
  induction k generalizing s with
  | zero => exact ⟨s, s, [], rfl, rfl, rfl, by simp, by simp, rfl, rfl, rfl, rfl⟩
  | succ k ih =>
    obtain ⟨hpredicting, hresponse, hblock⟩ := h s hs
    obtain ⟨t, u, ws, hforth, hback, hlength, ht, hu, hinner⟩ := ih hpredicting
    have hlast : responseTo j u = responseTo i s := (responseTo_of_sameBlock hinner j).trans hresponse
    refine ⟨t, afterCommand j u, responseTo i s :: ws, ?forth, ?back, congrArg Nat.succ hlength, ?first, ?second,
      sameBlock_trans hblock (afterCommand_of_sameBlock hinner j)⟩
    case forth => rw [List.replicate_succ, runCommands_cons, hforth]
    case back =>
      rw [List.replicate_succ', runCommands_append hback, runCommands_cons]
      rfl
    case first => rw [ht, (afterCommand_answers i s).responses, List.append_assoc, List.singleton_append]
    case second => rw [(afterCommand_answers j u).responses, hlast, hu, List.reverse_cons, List.append_assoc]

/-- Settles O41, with NEXT and PREV undoing each other. -/
theorem backwardWordsAreTheForwardWordsReversed : Obligations.BackwardWordsAreTheForwardWordsReversed :=
  fun k _ h => ⟨runCommands_replicate_undoes (fun _ => prev_undoes_next) k h,
    runCommands_replicate_undoes (fun _ => next_undoes_prev) k h⟩

theorem generationRead_zeros {s : State} (h : s.words = Vector.replicate 624 0) : generationRead s = s.words := by
  rw [generationRead, h, twist_zeros, ite_self]

theorem responseTo_next_zeros {s : State} (hr : s.ready = true) (h : s.words = Vector.replicate 624 0) :
    responseTo .next s = ⟨.ok, 0⟩ := by
  have htemper : temper 0 = 0 := by decide
  rw [responseTo_next_of_ready hr, predictedWord_eq, generationRead_zeros h, h, readAt_replicate, htemper]

theorem runCommands_nexts_zeros (k : Nat) {s : State} (hr : s.ready = true) (h : s.words = Vector.replicate 624 0) :
    ∃ t, runCommands (List.replicate k Instr.next) s = .next t ∧ t.words = s.words ∧
      t.responses = s.responses ++ List.replicate k ⟨.ok, 0⟩ ∧ t.cursor.val = (s.cursor.val + k) % 624 := by
  induction k generalizing s with
  | zero => exact ⟨s, rfl, rfl, by simp, (Nat.mod_eq_of_lt s.cursor.isLt).symm⟩
  | succ k ih =>
    have hwords : nextWords .next s = s.words := (nextWords_next_of_ready hr).trans (generationRead_zeros h)
    have hanswers : Answers s (afterCommand .next s) ⟨.ok, 0⟩ := responseTo_next_zeros hr h ▸ afterCommand_answers .next s
    obtain ⟨t, hrun, ht, hresponses, hcursor⟩ := ih (ready_afterCommand hr .next) (hwords.trans h)
    refine ⟨t, ?run, ht.trans hwords, ?responses, ?cursor⟩
    case run => rw [List.replicate_succ, runCommands_cons, hrun]
    case responses => rw [hresponses, hanswers.responses, List.append_assoc, List.replicate_succ, List.singleton_append]
    case cursor =>
      rw [hcursor, afterCommand_cursor, nextCursor_next_of_ready hr, wrapAdd_val]
      omega

/-- Settles O42: twist keeps the all-zero array, and `temper 0` is 0. -/
theorem theAllZeroArrayYieldsZeroForEver : Obligations.TheAllZeroArrayYieldsZeroForEver :=
  fun k _ hr hzeros => runCommands_nexts_zeros k hr (stateArray_ext fun i => (hzeros i).trans (readAt_replicate 0 i).symm)

/-! ## Positions of a sequence (R147) -/

/-- Where the generation of position `p` begins. -/
def generationStart (p : Int) : Int := 624 * (p / 624)

/-- The place of position `p` in its generation. -/
def placeInGeneration (p : Int) : Index := ⟨(p % 624).toNat, by omega⟩

theorem placeInGeneration_val (p : Int) : ((placeInGeneration p).val : Int) = p % 624 := by
  rw [placeInGeneration, Int.toNat_of_nonneg (Int.emod_nonneg p (by decide))]

theorem generationStart_add_place (p : Int) : generationStart p + ((placeInGeneration p).val : Int) = p := by
  rw [placeInGeneration_val, generationStart, Int.mul_ediv_add_emod]

theorem eq_placeInGeneration_iff (c : Index) (p : Int) : c = placeInGeneration p ↔ (c.val : Int) = p % 624 := by
  rw [← placeInGeneration_val, Int.natCast_inj, Fin.ext_iff]

theorem wrapAdd_placeInGeneration (p : Int) : wrapAdd (placeInGeneration p) 1 = placeInGeneration (p + 1) := by
  have hp := placeInGeneration_val p
  rw [eq_placeInGeneration_iff, wrapAdd_val]
  omega

theorem wrapPred_placeInGeneration (p : Int) : wrapPred (placeInGeneration p) = placeInGeneration (p - 1) := by
  rw [← Int.sub_add_cancel p 1, ← wrapAdd_placeInGeneration, wrapPred_wrapAdd_one, Int.add_sub_cancel]

/-- Only from the first place of a generation is the position before in another one. -/
theorem generationStart_pred (p : Int) :
    generationStart (p - 1) = if placeInGeneration p = 0 then generationStart p - 624 else generationStart p := by
  have hp := placeInGeneration_val p
  have hzero : placeInGeneration p = 0 ↔ p % 624 = 0 := by rw [Fin.ext_iff, Fin.val_zero]; omega
  simp only [hzero, generationStart]
  split <;> omega

theorem readAt_windowAt_generationStart (x : Int → Word) (p : Int) :
    readAt (windowAt x (generationStart p)) (placeInGeneration p) = x p := by
  rw [holdsWindow_windowAt, generationStart_add_place]

/-- At position `p` the array is the generation of position `p - 1`. -/
theorem atPosition_iff {x : Int → Word} {p : Int} {s : State} :
    AtPosition x p s ↔ s.cursor = placeInGeneration p ∧ s.words = windowAt x (generationStart (p - 1)) := by
  have hstart (hc : (s.cursor.val : Int) = p % 624) :
      p - 1 - ((s.cursor.val : Int) - 1) % 624 = generationStart (p - 1) := by
    rw [generationStart]
    omega
  rw [eq_placeInGeneration_iff, ← holdsWindow_iff]
  exact ⟨fun ⟨hc, hw⟩ => ⟨hc, hstart hc ▸ hw⟩, fun ⟨hc, hw⟩ => ⟨hc, (hstart hc).symm ▸ hw⟩⟩

section
variable {x : Int → Word} {p : Int} {s : State} (hx : Recurrence x) (h : AtPosition x p s)
include hx h

/-- A forward step reads the generation of position `p`. -/
theorem generationRead_of_atPosition : generationRead s = windowAt x (generationStart p) := by
  obtain ⟨hc, hw⟩ := atPosition_iff.1 h
  rw [generationRead, hw, hc, generationStart_pred, twist_windowAt hx]
  split
  · rw [Int.sub_add_cancel]
  · rfl

theorem predictedWord_of_atPosition : predictedWord s = temper (x p) := by
  obtain ⟨hc, -⟩ := atPosition_iff.1 h
  rw [predictedWord_eq, generationRead_of_atPosition hx h, hc, readAt_windowAt_generationStart]

theorem atPosition_succ {t : State} (hcursor : t.cursor = wrapAdd s.cursor 1) (hwords : t.words = generationRead s) :
    AtPosition x (p + 1) t := by
  obtain ⟨hc, -⟩ := atPosition_iff.1 h
  rw [atPosition_iff, hcursor, hc, wrapAdd_placeInGeneration, hwords, generationRead_of_atPosition hx h, Int.add_sub_cancel]
  exact ⟨rfl, rfl⟩

theorem atPosition_afterCommand_prev (hr : s.ready = true) : AtPosition x (p - 1) (afterCommand .prev s) := by
  obtain ⟨hc, hw⟩ := atPosition_iff.1 h
  rw [atPosition_iff, afterCommand_cursor, nextCursor_prev_of_ready hr, hc, wrapPred_placeInGeneration, afterCommand_words,
    nextWords_prev_of_ready hr, hw, untwist_windowAt hx, generationStart_pred (p - 1), ← wrapPred_placeInGeneration,
    ← hc]
  simp only [wrapPred_eq_zero_iff, apply_ite (windowAt x), and_self]

omit hx in
theorem precedingWord_of_atPosition : readAt s.words (wrapPred s.cursor) = x (p - 1) := by
  obtain ⟨hc, hw⟩ := atPosition_iff.1 h
  rw [hc, hw, wrapPred_placeInGeneration, readAt_windowAt_generationStart]

end

/-- Settles O39: a forward move leaves the generation of `x p` with the cursor one on, a backward one the generation of
`x (p - 2)` with the cursor one back. -/
theorem everyMoveFollowsTheSequence : Obligations.EveryMoveFollowsTheSequence := by
  intro x hx
  refine ⟨?start, fun p s hr hp => ⟨?next, ?prev, ?absorb⟩⟩
  case start =>
    intro s hc hwindow
    rw [atPosition_iff, hc]
    exact ⟨rfl, holdsWindow_iff.1 hwindow⟩
  case next =>
    exact ⟨_, exec_eq .next s, predictedWord_of_atPosition hx hp ▸ answers_next_of_ready hr,
      atPosition_succ hx hp (nextCursor_next_of_ready hr) (nextWords_next_of_ready hr)⟩
  case prev =>
    exact ⟨_, exec_eq .prev s, precedingWord_of_atPosition hp ▸ answers_prev_of_ready hr,
      atPosition_afterCommand_prev hx hp hr⟩
  case absorb =>
    intro raw hraw
    have hword := predictedWord_of_atPosition hx hp
    have hcontinues : s.verify = true ∨ untemper raw = readAt (generationRead s) s.cursor :=
      hraw.imp_right fun h => by rw [h, ← hword, predictedWord_eq, untemper_temper]
    have hresponse : responseTo (.absorb raw) s =
        if s.verify then ⟨if temper (x p) = raw then .ok else .consistencyMismatch, temper (x p)⟩ else ⟨.ok, 0⟩ := by
      rw [responseTo, hr, hword, Bool.true_and]
    exact ⟨_, exec_eq _ s, atPosition_succ hx hp rfl (nextWords_absorb_of_continuation hr hcontinues),
      hresponse ▸ afterCommand_answers _ s⟩

/-! ## The two-way sequence of a Valid array (R147) -/

/-- Two sequences alike on one generation are alike on the next and on the one before, so on all. -/
theorem recurrence_unique {x y : Int → Word} (hx : Recurrence x) (hy : Recurrence y) (h : windowAt x 0 = windowAt y 0) :
    x = y := by
  have hgeneration (q : Int) : windowAt x (624 * q) = windowAt y (624 * q) := by
    induction q using Int.induction_on with
    | zero => exact h
    | succ q ih => rw [Int.mul_add, Int.mul_one, ← twist_windowAt hx, ih, twist_windowAt hy]
    | pred q ih => rw [Int.mul_sub, Int.mul_one, ← untwist_windowAt hx, ih, untwist_windowAt hy]
  funext p
  rw [← readAt_windowAt_generationStart x, generationStart, hgeneration, ← generationStart,
    readAt_windowAt_generationStart]

/-- Twist permutes the Valid arrays. -/
def twistValid : Equiv.Perm {S : StateArray // Valid S} where
  toFun S := ⟨twist S.val, valid_twist S.val⟩
  invFun S := ⟨untwist S.val, valid_untwist S.val⟩
  left_inv S := Subtype.ext (untwist_twist S.property)
  right_inv S := Subtype.ext (twist_untwist S.property)

/-- The array `q` generations after `S`, before it where `q` is negative. -/
def generationAfter (S : {S : StateArray // Valid S}) (q : Int) : StateArray := ((twistValid ^ q) S).val

theorem generationAfter_succ (S : {S : StateArray // Valid S}) (q : Int) :
    generationAfter S (q + 1) = twist (generationAfter S q) := by
  rw [generationAfter, Int.add_comm, zpow_one_add, Equiv.Perm.mul_apply]
  rfl

/-- The words of all generations of `S` in a row. -/
def sequenceOf (S : {S : StateArray // Valid S}) (p : Int) : Word :=
  readAt (generationAfter S (p / 624)) (placeInGeneration p)

theorem holdsWindow_sequenceOf (S : {S : StateArray // Valid S}) (q : Int) :
    HoldsWindow (sequenceOf S) (624 * q) (generationAfter S q) := by
  intro i
  have hi := i.isLt
  have hgeneration : (624 * q + (i.val : Int)) / 624 = q := by omega
  have hplace : i = placeInGeneration (624 * q + (i.val : Int)) := (eq_placeInGeneration_iff _ _).2 (by omega)
  rw [sequenceOf, hgeneration, ← hplace]

theorem recurrence_sequenceOf (S : {S : StateArray // Valid S}) : Recurrence (sequenceOf S) := by
  intro p
  have hnext := holdsWindow_sequenceOf S (p / 624 + 1)
  rw [generationAfter_succ, Int.mul_add, Int.mul_one] at hnext
  have hstep := (recurrenceAt_iff_of_holdsWindow (holdsWindow_sequenceOf S (p / 624)) hnext (placeInGeneration p)).1
    (recurrenceAt_twist _ _)
  rwa [← generationStart, generationStart_add_place] at hstep

/-- Settles O38: the sequence is `sequenceOf S`, unique by `recurrence_unique`. -/
theorem aValidArrayHasOneTwoWaySequence : Obligations.AValidArrayHasOneTwoWaySequence := by
  intro S hS
  have hwindow : HoldsWindow (sequenceOf ⟨S, hS⟩) 0 S := holdsWindow_sequenceOf ⟨S, hS⟩ 0
  refine ⟨sequenceOf ⟨S, hS⟩, ⟨recurrence_sequenceOf _, hwindow⟩, ?_⟩
  rintro y ⟨hy, hywindow⟩
  exact recurrence_unique hy (recurrence_sequenceOf _) ((holdsWindow_iff.1 hywindow).symm.trans (holdsWindow_iff.1 hwindow))

end Sys2Proof.Machine

/-! # Inspection and the reserved opcodes (44_inspection.md) -/

namespace Sys2Proof.Machine

/-! ## STATUS (R160; 10_state.md R25) -/

theorem testBit_cursor_of_ge (c : Index) {k : Nat} (hk : 10 ≤ k) : c.val.testBit k = false := by
  have hc : c.val < 2 ^ 10 := by omega
  exact Nat.testBit_lt_two_pow (hc.trans_le (Nat.pow_le_pow_right (by decide) hk))

theorem getLsbD_flagWord (b : Bool) (k : Nat) : (flagWord b).getLsbD k = (decide (k = 0) && b) := by
  cases b with
  | false => simp [flagWord]
  | true => simp [flagWord, BitVec.getLsbD_one]

/-- A flag shifted to a place inside the word is the bit at that place. -/
theorem getLsbD_flagWord_shiftLeft (b : Bool) {place : Nat} (hplace : place < 32) (k : Nat) :
    (flagWord b <<< place).getLsbD k = (decide (k = place) && b) := by
  have hiff : k = place ↔ (k < 32 ∧ ¬ k < place) ∧ k - place = 0 := by omega
  simp only [BitVec.getLsbD_shiftLeft, getLsbD_flagWord, hiff, Bool.decide_and, decide_not, Bool.and_assoc]

/-- The status word bit by bit: the bits of the cursor, and the two flags at their places. -/
theorem getLsbD_statusWord (s : State) (k : Nat) :
    (statusWord s).getLsbD k = (s.cursor.val.testBit k || decide (k = 16) && s.ready || decide (k = 17) && s.verify) := by
  have hcursor : (BitVec.ofNat 32 s.cursor.val).getLsbD k = s.cursor.val.testBit k := by
    rw [BitVec.getLsbD, BitVec.toNat_ofNat, Nat.mod_eq_of_lt (by omega)]
  rw [statusWord, BitVec.getLsbD_or, BitVec.getLsbD_or, hcursor, getLsbD_flagWord_shiftLeft _ (by decide),
    getLsbD_flagWord_shiftLeft _ (by decide)]

theorem extractLsb'_statusWord_cursor (s : State) : (statusWord s).extractLsb' 0 10 = BitVec.ofNat 10 s.cursor.val := by
  refine BitVec.eq_of_getLsbD_eq fun k hk => ?_
  have h16 : k ≠ 16 := by omega
  have h17 : k ≠ 17 := by omega
  rw [BitVec.getLsbD_ofNat]
  simp [getLsbD_statusWord, hk, h16, h17]

/-- A field of the status word above the cursor and beside the flags is 0. -/
theorem extractLsb'_statusWord_eq_zero (s : State) {start len : Nat} (hstart : 10 ≤ start)
    (hflags : start + len ≤ 16 ∨ 18 ≤ start) : (statusWord s).extractLsb' start len = 0 := by
  ext k hk
  have h16 : start + k ≠ 16 := by omega
  have h17 : start + k ≠ 17 := by omega
  have hcursor := testBit_cursor_of_ge s.cursor (show 10 ≤ start + k by omega)
  simp [getLsbD_statusWord, h16, h17, hcursor]

/-- Settles O43: the word is the status word, read field by field through its bits. -/
theorem statusShowsCursorAndFlags : Obligations.StatusShowsCursorAndFlags := by
  intro s
  refine ⟨statusWord s, rfl, ?cursor, extractLsb'_statusWord_eq_zero s (by decide) (by decide), ?ready, ?verify,
    extractLsb'_statusWord_eq_zero s (by decide) (by decide)⟩
  case cursor =>
    rw [extractLsb'_statusWord_cursor, BitVec.toNat_ofNat, Nat.mod_eq_of_lt (by omega)]
  case ready => rw [getLsbD_statusWord, testBit_cursor_of_ge _ (by decide)]; simp
  case verify => rw [getLsbD_statusWord, testBit_cursor_of_ge _ (by decide)]; simp

/-! ## READ_STATE (R161) -/

/-- Settles O44: the two branches of the index check; a response is the only change. -/
theorem readStateReadsTheStoredWord : Obligations.ReadStateReadsTheStoredWord := fun _ s =>
  ⟨execReadState_inRange s, execReadState_outOfRange s⟩

/-! ## The reserved opcodes (R162; 60_exceptions.md R184) -/

theorem exec_of_isReserved {i : Instr} (h : i.isReserved = true) (s : State) :
    exec i s = .next { s with responses := s.responses ++ [⟨.illegalCommand, 0⟩] } := by
  cases i with
  | status | absorb | twist | untwist | temper | untemper | next | prev | readState => contradiction
  | _ => rfl

/-- Only a reserved opcode raises ILLEGAL_COMMAND: the other commands answer from their own lists of statuses. -/
theorem isReserved_of_status_responseTo {i : Instr} {s : State} (h : (responseTo i s).status = .illegalCommand) :
    i.isReserved = true := by
  cases i with
  | reserved9 | reservedA | reservedB | reservedC | reservedD | reservedE | reservedF => rfl
  | status | twist | untwist | temper | untemper => contradiction
  | absorb | next | prev => simp only [responseTo] at h; split_ifs at h
  | readState => simp only [responseTo] at h; split at h <;> contradiction

/-- Settles O45: what is reserved is decided by the opcode, and it alone raises ILLEGAL_COMMAND. -/
theorem reservedOpcodesAnswerIllegalCommand : Obligations.ReservedOpcodesAnswerIllegalCommand := by
  refine ⟨?commands, ?requests, ?noOther⟩
  case commands =>
    intro s i hi
    have hreserved : ∀ j ∈ [Instr.reserved9, .reservedA, .reservedB, .reservedC, .reservedD, .reservedE, .reservedF],
        j.isReserved = true := by decide
    exact exec_of_isReserved (hreserved i hi) s
  case requests =>
    intro w s hw
    refine exec_of_isReserved ((isReserved_iff _).2 ?_) s
    rwa [opcode_decode]
  case noOther =>
    intro i s t d hexec hanswers
    obtain rfl := eq_afterCommand hexec
    have hresponse : responseTo i s = ⟨.illegalCommand, d⟩ := answers_unique (afterCommand_answers i s) hanswers
    exact isReserved_of_status_responseTo (congrArg Response.status hresponse)

end Sys2Proof.Machine

/-! # Errors (60_exceptions.md) -/

namespace Sys2Proof.Machine

/-- Settles O9: a command's next state is `afterCommand`, its response `responseTo`. -/
theorem everyCommandAnswersExactlyOnce : Obligations.EveryCommandAnswersExactlyOnce := fun i s =>
  ⟨afterCommand i s, responseTo i s, exec_eq i s, afterCommand_answers i s⟩

/-! ## The four errors and their causes (R181 to R184) -/

/-- The errors a command can end in, each with what brings it about and the response it gives. -/
inductive Raises (s : State) : Instr → Response → Prop where
  | notReady {i : Instr} (hi : i = .next ∨ i = .prev) (hr : s.ready = false) : Raises s i ⟨.notReady, 0⟩
  | consistencyMismatch {raw : Word} (hr : s.ready = true) (hv : s.verify = true) (hne : predictedWord s ≠ raw) :
      Raises s (.absorb raw) ⟨.consistencyMismatch, predictedWord s⟩
  | invalidArgument {index : Word} (h : 624 ≤ index.toNat) : Raises s (.readState index) ⟨.invalidArgument, 0⟩
  | illegalCommand {i : Instr} (h : i.isReserved = true) : Raises s i ⟨.illegalCommand, 0⟩

section
variable {i : Instr} {s : State}

theorem afterCommand_of_notReady (hi : i = .next ∨ i = .prev) (hr : s.ready = false) :
    afterCommand i s = s.respond .notReady 0 := by
  obtain rfl | rfl := hi
  · exact (eq_afterCommand (i := .next) (execNext_notReady s hr)).symm
  · exact (eq_afterCommand (i := .prev) (execPrev_notReady s hr)).symm

theorem responseTo_of_notReady (hi : i = .next ∨ i = .prev) (hr : s.ready = false) : responseTo i s = ⟨.notReady, 0⟩ :=
  answers_unique (afterCommand_answers i s) (afterCommand_of_notReady hi hr ▸ respond_answers s .notReady 0)

/-- A response that is not OK is one of the four errors. -/
theorem raises_responseTo (h : (responseTo i s).status ≠ .ok) : Raises s i (responseTo i s) := by
  cases i with
  | status | twist | untwist | temper | untemper => exact absurd rfl h
  | absorb raw =>
    by_cases hrv : s.ready = true ∧ s.verify = true
    · obtain ⟨hr, hv⟩ := hrv
      rw [responseTo_absorb_of_verifying hr hv] at h ⊢
      by_cases hp : predictedWord s = raw
      · exact absurd (if_pos hp) h
      · rw [if_neg hp]
        exact .consistencyMismatch hr hv hp
    · rw [not_and_or, Bool.not_eq_true, Bool.not_eq_true] at hrv
      rw [responseTo_absorb_of_notVerifying hrv] at h
      exact absurd rfl h
  | next =>
    cases hr : s.ready with
    | false => exact responseTo_of_notReady (.inl rfl) hr ▸ .notReady (.inl rfl) hr
    | true => exact absurd (congrArg Response.status (responseTo_next_of_ready hr)) h
  | prev =>
    cases hr : s.ready with
    | false => exact responseTo_of_notReady (.inr rfl) hr ▸ .notReady (.inr rfl) hr
    | true => exact absurd (congrArg Response.status (responseTo_prev_of_ready hr)) h
  | readState index =>
    by_cases hlt : index.toNat < 624
    · exact absurd (by simp [responseTo, stateIndex, hlt]) h
    · have hresponse : responseTo (.readState index) s = ⟨.invalidArgument, 0⟩ := by simp [responseTo, stateIndex, hlt]
      exact hresponse ▸ .invalidArgument (not_lt.1 hlt)
  | reserved9 | reservedA | reservedB | reservedC | reservedD | reservedE | reservedF => exact .illegalCommand rfl

/-- The inversion of a command that ends in an error. -/
theorem raises_of_answers {t : State} {r : Response} (h : exec i s = .next t) (hr : Answers s t r) (hne : r.status ≠ .ok) :
    Raises s i r := by
  obtain rfl := eq_afterCommand h
  obtain rfl := answers_unique (afterCommand_answers i s) hr
  exact raises_responseTo hne

theorem changesBlock_of_isReserved (h : i.isReserved = true) : i.changesBlock = false := by
  cases i with
  | absorb | twist | untwist | next | prev => contradiction
  | _ => rfl

end

/-- Settles O34: before readiness NEXT and PREV only respond, and `Raises` has no other NOT_READY. -/
theorem notReadyIsNextAndPrevBeforeReadiness : Obligations.NotReadyIsNextAndPrevBeforeReadiness := by
  constructor
  case left =>
    intro s hr i hi
    have hi : i = .next ∨ i = .prev := by simpa using hi
    rw [exec_eq, afterCommand_of_notReady hi hr, State.respond]
  case right =>
    intro i s t d h hanswers
    cases raises_of_answers h hanswers nofun with
    | notReady hi hr => exact ⟨hi, hr⟩

/-- Settles O46, error by error: all but CONSISTENCY_MISMATCH leave the architectural state alone. -/
theorem errorsArePrecise : Obligations.ErrorsArePrecise := by
  intro i s t r h hanswers hne
  have hraises := raises_of_answers h hanswers hne
  obtain rfl := eq_afterCommand h
  cases hraises with
  | notReady hi hr =>
    exact ⟨fun _ => ⟨rfl, afterCommand_of_notReady hi hr ▸ respond_sameBlock s _ _⟩, nofun⟩
  | consistencyMismatch hr hv hp =>
    exact ⟨fun hother => absurd rfl hother, fun _ => ⟨_, rfl, hr, hv, predictedWord_eq s, hp,
      nextWords_absorb_of_verifying hr hv _, wrapAdd_val s.cursor 1, ready_afterCommand hr _, rfl⟩⟩
  | invalidArgument => exact ⟨fun _ => ⟨rfl, afterCommand_sameBlock rfl s⟩, nofun⟩
  | illegalCommand hi => exact ⟨fun _ => ⟨rfl, afterCommand_sameBlock (changesBlock_of_isReserved hi) s⟩, nofun⟩

end Sys2Proof.Machine

/-! # Reset and the order of requests (70_reset_and_hazards.md) -/

namespace Sys2Proof.Machine

/-! ## One step, by what waits at the ports (R203) -/

section
variable {s : State}

theorem step_eq_exec {w : Request} {rest : List Request} (hrst : s.rst = false) (hq : s.requests = w :: rest) :
    step s = exec (decode w) { s with requests := rest } := by
  unfold step
  rw [(acceptRequest_eq_some_iff s _ w).2 ⟨hrst, rest, hq, rfl⟩]

theorem step_eq_idle (hq : s.rst = true ∨ s.requests = []) : step s = .next (idle s) := by
  unfold step
  rw [(acceptRequest_eq_none_iff s).2 hq]

theorem step_eq_self (hq : s.rst = true ∨ s.requests = []) (he : s.events = []) : step s = .next s := by
  rw [step_eq_idle hq, idle, he]

end

/-- Every step answers a next state (R207). -/
theorem exists_step (s : State) : ∃ t, step s = .next t := by
  cases haccept : acceptRequest s with
  | none => exact ⟨_, step_eq_idle ((acceptRequest_eq_none_iff s).1 haccept)⟩
  | some accepted =>
    obtain ⟨w, t⟩ := accepted
    obtain ⟨hrst, rest, hq, -⟩ := (acceptRequest_eq_some_iff s t w).1 haccept
    exact ⟨_, (step_eq_exec hrst hq).trans (exec_eq _ _)⟩

/-! ## The reset values (R200) -/

theorem atResetValues_of_sameBlock {s t : State} (h : AtResetValues s) (hblock : SameBlock s t)
    (hstrap : t.cfgVerify = s.cfgVerify) : AtResetValues t := by
  obtain ⟨hwords, hcursor, hready, hverify⟩ := hblock
  constructor
  case words => exact fun i => hwords ▸ h.words i
  case cursor => exact hcursor.trans h.cursor
  case ready => exact hready.trans h.ready
  case verify => rw [hverify, hstrap, h.verify]

theorem applyReset_atResetValues (s : State) : AtResetValues s.applyReset := ⟨readAt_replicate 0, rfl, rfl, rfl⟩

theorem assertReset_atResetValues (s : State) : AtResetValues s.assertReset := applyReset_atResetValues _

theorem resetWith_atResetValues (v : Bool) : AtResetValues (State.resetWith v) := ⟨readAt_replicate 0, rfl, rfl, rfl⟩

/-! ## The host's moves, `rst` asserted -/

/-- Out of reset the abandoned command leaves what asserting `rst` leaves (R201). -/
theorem hostMove_presentAborted_of_released {s : State} (hrst : s.rst = false) (w : Request) :
    hostMove (.presentAborted w) s = s.assertReset := by
  simp [hostMove, hrst]

section
variable {s : State} (hrst : s.rst = true)
include hrst

/-- While `rst` is asserted no command can be in progress: the request waits (log entries 7 and 16). -/
theorem hostMove_presentAborted_of_rst (w : Request) : hostMove (.presentAborted w) s = s.present w := if_pos hrst

/-- Two moves take the reset values again, `verify` from the strap among them; a presentation leaves them alone. -/
theorem hostMove_atResetValues (h : AtResetValues s) (e : HostEvent) : AtResetValues (hostMove e s) := by
  have hpresent (w : Request) : AtResetValues (s.present w) := atResetValues_of_sameBlock h ⟨rfl, rfl, rfl, rfl⟩ rfl
  cases e with
  | present w => exact hpresent w
  | presentAborted w => exact hostMove_presentAborted_of_rst hrst w ▸ hpresent w
  | strap level =>
    rw [hostMove, State.setStrap, if_pos hrst]
    exact applyReset_atResetValues _
  | rst level =>
    cases level with
    | true => exact assertReset_atResetValues s
    | false =>
      rw [hostMove, State.releaseReset, if_pos hrst]
      exact applyReset_atResetValues _

theorem requests_hostMove_of_rst (e : HostEvent) (rest : List HostEvent) :
    (hostMove e s).requests = s.requests ++ presentedNext (e :: rest) := by
  obtain ⟨-, -, hrequests⟩ := hostMove_keeps e s
  cases e with
  | presentAborted w => exact congrArg State.requests (hostMove_presentAborted_of_rst hrst w)
  | _ => exact hrequests

theorem rst_hostMove_of_rst {e : HostEvent} (he : e ≠ .rst false) : (hostMove e s).rst = true := by
  cases e with
  | present w => exact hrst
  | presentAborted w => exact (congrArg State.rst (hostMove_presentAborted_of_rst hrst w)).trans hrst
  | strap level => exact (setStrap_rst s level).trans hrst
  | rst level =>
    cases level with
    | true => rfl
    | false => contradiction

end

/-! ## The invariant of a reset in force (R200) -/

theorem hostMove_heldInReset {s : State} (h : HeldInReset s) (e : HostEvent) : HeldInReset (hostMove e s) := by
  intro hafter
  cases hrst : s.rst with
  | true => exact hostMove_atResetValues hrst (h hrst) e
  | false =>
    -- `rst` was not asserted before: only the moves that assert it leave it asserted.
    cases e with
    | present w => exact absurd hafter (by simp [hostMove, hrst])
    | presentAborted w => exact hostMove_presentAborted_of_released hrst w ▸ assertReset_atResetValues s
    | strap level => exact absurd hafter (by simp [hostMove, hrst])
    | rst level =>
      cases level with
      | true => exact assertReset_atResetValues s
      | false => exact absurd hafter (by simp [hostMove])

/-- The move the host has made is no part of the architectural state. -/
theorem heldInReset_with_events {s : State} (h : HeldInReset s) (rest : List HostEvent) :
    HeldInReset { s with events := rest } :=
  fun hrst => atResetValues_of_sameBlock (h hrst) ⟨rfl, rfl, rfl, rfl⟩ rfl

theorem idle_heldInReset {s : State} (h : HeldInReset s) : HeldInReset (idle s) := by
  obtain ⟨-, hidle⟩ | ⟨e, rest, -, hidle⟩ := idle_cases s <;> rw [hidle]
  · exact h
  · exact hostMove_heldInReset (heldInReset_with_events h rest) e

/-- Settles O4: a command runs only where `rst` is not asserted, and does not assert it; a move of the host keeps the
invariant. -/
theorem everyStepKeepsHeldInReset : Obligations.EveryStepKeepsHeldInReset := by
  intro s t h hstep
  obtain ⟨w, rest, hrst, -, hexec⟩ | ⟨-, rfl⟩ := step_cases hstep
  · intro ht
    have hkept : t.rst = s.rst := eq_afterCommand hexec ▸ (afterCommand_ports _ _).rst
    rw [hkept, hrst] at ht
    contradiction
  · exact idle_heldInReset h

/-- Settles O2: the host's move that asserts `rst`, and every move it can make while `rst` is asserted. -/
theorem resetSetsAllStateAndAcceptsNoRequest : Obligations.ResetSetsAllStateAndAcceptsNoRequest := by
  constructor
  case left =>
    intro s rest _ hq he
    exact ⟨_, step_eq_hostMove (.inr hq) he, assertReset_atResetValues _, rfl, rfl, hq, rfl, rfl⟩
  case right =>
    intro s hrst hheld
    cases he : s.events with
    | nil =>
      exact ⟨s, step_eq_self (.inl hrst) he, hheld hrst, rfl, he, (List.append_nil _).symm, fun _ => hrst, nofun⟩
    | cons e rest =>
      have hrst' : State.rst { s with events := rest } = true := hrst
      have hvalues : AtResetValues { s with events := rest } := heldInReset_with_events hheld rest hrst
      obtain ⟨hresponses, hevents, -⟩ := hostMove_keeps e { s with events := rest }
      refine ⟨_, step_eq_hostMove (.inl hrst) he, hostMove_atResetValues hrst' hvalues e, hresponses, hevents,
        requests_hostMove_of_rst hrst' e rest, ?asserted, ?released⟩
      case asserted =>
        intro hne
        exact rst_hostMove_of_rst hrst' fun heq => hne (congrArg some heq)
      case released =>
        intro _ hcons
        obtain ⟨rfl, -⟩ := List.cons.inj hcons
        exact ⟨releaseReset_rst _, by simp [hostMove, hrst]⟩

/-- Settles O3: the step is the host's move, and that move asserts `rst`. -/
theorem resetDuringCommandAbandonsIt : Obligations.ResetDuringCommandAbandonsIt := by
  intro s w rest hrst hq he
  refine ⟨State.assertReset { s with events := rest }, ?_, assertReset_atResetValues _, rfl, rfl, hq, rfl⟩
  rw [step_eq_hostMove (.inr hq) he]
  exact congrArg _ (hostMove_presentAborted_of_released (s := { s with events := rest }) hrst w)

/-- Settles O5: the reset values hold after a reset with any level of the strap, `Config.strapAtReset` among them. -/
theorem resetIsHeldInReset : Obligations.ResetIsHeldInReset := by
  have hreset : AtResetValues State.reset := resetWith_atResetValues Config.strapAtReset
  exact ⟨⟨fun _ => hreset, hreset⟩,
    fun v => ⟨fun _ => resetWith_atResetValues v, resetWith_atResetValues v, rfl, rfl, rfl, rfl⟩⟩

/-! ## Runs of commands and of steps (R203, R207) -/

/-- Settles O47, by induction on the list of commands with both states general. -/
theorem responsesDependOnTheBlockAlone : Obligations.ResponsesDependOnTheBlockAlone := by
  intro is
  induction is with
  | nil => exact fun s s' h => ⟨s, s', [], rfl, rfl, h, rfl, by simp, by simp⟩
  | cons i is ih =>
    intro s s' h
    obtain ⟨t, t', rs, hrun, hrun', hblock, hlength, ht, ht'⟩ := ih _ _ (afterCommand_of_sameBlock h i)
    refine ⟨t, t', responseTo i s :: rs, ?_, ?_, hblock, congrArg Nat.succ hlength, ?_, ?_⟩
    · rw [runCommands_cons, hrun]
    · rw [runCommands_cons, hrun']
    · rw [ht, (afterCommand_answers i s).responses, List.append_assoc, List.singleton_append]
    · rw [ht', (afterCommand_answers i s').responses, responseTo_of_sameBlock h i, List.append_assoc,
        List.singleton_append]

/-- A request placed by `withFetchWord` is the one the next step runs (log entry 8). -/
theorem step_withFetchWord {nbits w : Nat} {i : Instr} (h : decodeTableWord nbits w = some i) (s : State) :
    step (s.withFetchWord nbits w) = exec i { s with rst := false } := by
  obtain ⟨r, hr, rfl⟩ := Option.map_eq_some_iff.1 h
  rw [State.withFetchWord, hr, placeRequest]
  exact step_eq_exec rfl rfl

/-- Settles O48, clause by clause: an accepted request, a placed one, the host's moves, and nothing to do. -/
theorem aStepRunsTheDecodedRequest : Obligations.AStepRunsTheDecodedRequest := by
  refine ⟨fun s w rest => step_eq_exec, fun s nbits w i h => step_withFetchWord h s, ?presented, ?waits,
    fun s => step_eq_self⟩
  case presented =>
    intro s w rest _ hq he
    rw [step_eq_hostMove (.inr hq) he]
    simp [hostMove, State.present, hq]
  case waits =>
    intro s w rest hrst he
    obtain he | he := he <;> rw [step_eq_hostMove (.inl hrst) he]
    · rfl
    · exact congrArg _ (hostMove_presentAborted_of_rst (s := { s with events := rest }) hrst w)

/-- Settles O49: every state has a next one, whichever run reaches it. -/
theorem noRunEverStops : Obligations.NoRunEverStops := fun _ t _ => exists_step t

end Sys2Proof.Machine
